-- ==== Sys2Proof/Word.lean ====
section
/-! DEFINITION. The word types of the DR-540 (spec/00_scope.md, "Words, addresses and numbers"). -/

namespace Sys2Proof

/-- A word is 32 bits, stored little-endian. -/
abbrev Word := BitVec 32

/-- A byte of memory or of a link frame. -/
abbrev Byte := BitVec 8

/-- A 28-bit byte address: the address space is 256 MiB. -/
abbrev Addr := BitVec 28

end Sys2Proof
end

