-- ==== Sys2Proof/Syntax.lean ====
section
/-! DEFINITION. The commands of the DR-540: one constructor for each row of spec/opcode_table.json, with the operands
the rule of the row gives it. A host command's last operand `more` says that its host access goes on with a further
word (R1, R4, R14); the operand `other` of a word that is read by fields holds the bits outside the fields, which the
part ignores and memory receives (R206). -/

namespace Sys2Proof

/-- The two carriers (R41). -/
inductive Carrier where
  | a
  | b
  deriving DecidableEq, Repr

/-- The two stage axes (R82). -/
inductive Axis where
  | x
  | y
  deriving DecidableEq, Repr

/-- The levels that the part samples when RESET_N is released: PLAN_SEL (R25), PRES[4:0] with PA in bit 0 (R57), the
phases (A, B) of the two encoders with A the higher bit (R82), INTERLOCK asserted or not (R102), and FSETTLED. -/
structure Pins where
  planSel   : BitVec 2 := 0
  pres      : BitVec 5 := 0
  xPhase    : BitVec 2 := 0
  yPhase    : BitVec 2 := 0
  interlock : Bool := false
  fsettled  : Bool := false
  deriving DecidableEq, Repr

/-- What the robot receiver can find bad (R69): a byte, a byte with a stop-bit error, or a whole frame whose check or
type is wrong. -/
inductive BadRobotInput where
  | byte (b : Byte)
  | stopBitError
  | frame (type tag a b check : Byte)
  deriving DecidableEq, Repr

/-- The commands. -/
inductive Instr where
  -- reset, plan and the write-back queue
  | resetAssert
  | resetRelease (pins : Pins)
  | planRead
  | writebackDrain
  | waitingStepTaken
  | queueEmptyRelease
  | adoptionMoment
  -- host words by class
  | forwardedAccess (addr : Addr) (write : Bool) (words : List (BitVec 4 × Word)) (more : Bool)
  | hostPWrite (addr : Addr) (be : BitVec 4) (data : Word) (more : Bool)
  | hWordWrite (addr : Addr) (be : BitVec 4) (data : Word) (more : Bool)
  | ringRecordWrite (addr : Addr) (be : BitVec 4) (data : Word) (more : Bool)
  | postedResultRead (addr : Addr) (more : Bool)
  | partialTrigger (addr : Addr) (be : BitVec 4) (data : Word) (more : Bool)
  | sWordWrite (addr : Addr) (be : BitVec 4) (data : Word) (more : Bool)
  | unknownRequest (addr : Addr) (data : Word) (more : Bool)
  -- plan and handling requests
  | commitPlan (more : Bool)
  | mapCarrier (carrier : Carrier) (other : Word) (more : Bool)
  | declare (other : Word) (more : Bool)
  | declareEmpty (other : Word) (more : Bool)
  | resumeHandling (other : Word) (more : Bool)
  | cancel (slot : BitVec 2) (other : Word) (more : Bool)
  | go (slot : BitVec 2) (more : Bool)
  -- transfers and the robot link
  | sendAttempt
  | robotAck (tag a b : Byte)
  | robotNak (tag a b : Byte)
  | robotDone (tag a b : Byte)
  | robotFault (tag a b : Byte)
  | robotBadFrame (bad : BadRobotInput)
  | robotFrameTimeout
  | ackTimeout
  | doneTimeout
  | presenceChange (sensor : Fin 5) (level : Bool)
  | debounceExpiry (sensor : Fin 5)
  -- stage motion
  | encoderTransition (axis : Axis) (phase : BitVec 2)
  | preset (more : Bool)
  | motionEnable (more : Bool)
  | motionDisable (more : Bool)
  | settleExpiry
  | moveTimeout
  | stageFrameEnd
  | interlockAssert
  | interlockRelease
  | imgTrigPulseEnd
  -- alignment
  | coefficientWrite (k : Fin 10) (be : BitVec 4) (data : Word) (more : Bool)
  | alignmentCommit (more : Bool)
  | identityCheckEnd
  | viewRequest (more : Bool)
  | inverseDone
  | forwardDone
  -- focus
  | predictionDone
  | actuatorFrameEnd
  | fsettledRise
  | hsamplePulseEnd
  | hreadyRise
  | heightSampleRead (e : BitVec 16)
  | focusSettleTimeout
  | sampleTimeout
  | seed (more : Bool)
  | clearNode (more : Bool)
  | clearMap (more : Bool)
  | query (more : Bool)
  -- defect list
  | sealList (n : Word) (more : Bool)
  | orderFormed
  | unsealList (more : Bool)
  | sealedWrite (record : BitVec 12) (k : Fin 4) (be : BitVec 4) (data : Word) (more : Bool)
  | skipDefect (record : BitVec 12) (more : Bool)
  | unskipDefect (record : BitVec 12) (more : Bool)
  -- revisit sequencer
  | start (more : Bool)
  | pause (more : Bool)
  | resume (more : Bool)
  | stop (more : Bool)
  | abandon (more : Bool)
  | probe (more : Bool)
  | verdictImaged (reviewClass : BitVec 4) (index : BitVec 12) (other : Word) (more : Bool)
  | verdictReimage (reviewClass : BitVec 4) (index : BitVec 12) (other : Word) (more : Bool)
  | verdictReject (reviewClass : BitVec 4) (index : BitVec 12) (other : Word) (more : Bool)
  | verdictTimeout
  -- lot and reports
  | openLot (more : Bool)
  | closeLot (more : Bool)
  | forceClose (more : Bool)
  | posting
  | consumerWrite (be : BitVec 4) (data : Word) (more : Bool)
  | eventWrite (be : BitVec 4) (data : Word) (more : Bool)
  | eventMaskWrite (be : BitVec 4) (data : Word) (more : Bool)
  | coalesceTimerExpiry
  | robotByteReceived (byte : Byte)
  deriving DecidableEq, Repr

end Sys2Proof
end

