-- ==== Sys2Proof/Config.lean ====
section
/-! DEFINITION. The fixed constants of the DR-540 (spec/00_scope.md, "Fixed constants" and "Principal quantities").
The last five are the free values: values that the spec does not state after a command that goes on. They have no
body, so a claim about them holds whatever they are. -/

namespace Sys2Proof.Config

/-- Plan signature (R27, R28). -/
def planSignature : Word := 0x4C4B504C
/-- Commit code (R35). -/
def commitCode : Word := 0x434F4D54
/-- Lot status, within limits (R196). -/
def lotWithinLimits : Word := 0x0000A55A
/-- Lot status, limit tripped (R196). -/
def lotTripped : Word := 0x00005AA5
/-- The height sample code NO_CAPTURE, −32,768 (R135). -/
def noCapture : BitVec 16 := 0x8000

/-- The plan block's base for each value of PLAN_SEL (R25). -/
def planBlockBase (sel : BitVec 2) : Nat :=
  match sel.toNat with
  | 0 => 0x0FFFF000
  | 1 => 0x07FFF000
  | 2 => 0x03FFF000
  | _ => 0x01FFF000

/-- The size of the plan block (R27). -/
def planBlockSize : Nat := 256
/-- Write-back queue entries (R16). -/
def queueEntries : Nat := 16
/-- The occupancy from which write-backs are preferred to the host (R21). -/
def queueHigh : Nat := 12
/-- Largest accepted coordinate magnitude in nm (R114). -/
def coordinateLimit : Int := 200000000
/-- What a byte of memory that nothing has written reads as. DESIGN CHOICE, log 4 (unsafe). -/
def unwrittenByte : Byte := 0

/-- Position numbers of the five non-slot positions (R42). -/
def posPA : Nat := 50
/-- The load lock. -/
def posLL : Nat := 51
/-- The stage. -/
def posST : Nat := 52
/-- The upper robot arm. -/
def posUA : Nat := 53
/-- The lower robot arm. -/
def posLA : Nat := 54

/-- The presence debounce while no plan is in force, in ms (R50). -/
def bareDebounceMs : Nat := 500
/-- The robot receiver's gap timeout in µs (R69). -/
def robotGapUs : Nat := 5000
/-- A stage link frame's length in µs (R88). -/
def stageFrameUs : Nat := 22
/-- An actuator frame's length in µs (R130). -/
def actuatorFrameUs : Nat := 12
/-- The image trigger pulse in µs (R101). -/
def triggerPulseUs : Nat := 10
/-- The HSAMPLE pulse in µs (R133). -/
def hsamplePulseUs : Nat := 2

/-- FREE VALUE: the source, one of the three, that is recorded where no prediction was made (R128, R137, R138, R181,
log 14). The argument is `State.openCount`. -/
opaque openSource : Nat → Fin 3
/-- FREE VALUE: the CLAMPED flag that is recorded where no prediction was made (R128, R137, R138, R181, log 14). -/
opaque openClamped : Nat → Bool
/-- FREE VALUE: the Z0 of the result that is handed over where no prediction was made (R132, R136, R137, R138, log 14); no
word shows it. -/
opaque openZ0 : Nat → Int
/-- FREE VALUE: the samples used, 0 to 8, that a probe's result shows where no attempt was made (R128, R181, log 14). -/
opaque openSamples : Nat → Fin 9
/-- FREE VALUE: the current attempt, one of 1 to 3, less one, that is shown when the attempts plus one are beyond 3
(R162, log 20). The argument is the number of attempts. -/
opaque openAttempt : Nat → Fin 3

end Sys2Proof.Config
end

