-- ==== Sys2Proof/Machine/State.lean ====
section
/-! DEFINITION. The state of the DR-540 as plain data: everything the spec gives the part, block by block, the memory
it stands before, and the queue of waiting commands. A field's default is its value right after the release of
RESET_N, so `State.reset` is the state with every field at its default. -/

namespace Sys2Proof.Machine

/-! ### Faults and refusals -/

/-- Why a step can stop with a fault. The spec stops the part on nothing: an error is a result code (R11), an event
flag (R203) or a FAULT report (R202), so there is no constructor. -/
inductive Fault where
  deriving DecidableEq, Repr

/-- Why a command can be refused as having no meaning. -/
inductive Refusal where
  /-- Raised by a dispatch arm of a command that is not modelled; no arm does so. Safe: the machine stops. -/
  | notModelled (mnemonic : String)
  deriving DecidableEq, Repr

/-! ### Shared data -/

/-- A table by number, sparse: keys rise, and a number that is not listed holds the table's default. -/
abbrev Table (α : Type) := List (Nat × α)

/-- The seven windows (R4, section 1.2). -/
inductive Win where
  | plan
  | handling
  | stage
  | focus
  | defect
  | lot
  | ring
  deriving DecidableEq, Repr

/-- A word of a window: the window and the byte offset from its base. -/
structure WordRef where
  win : Win
  off : Nat
  deriving DecidableEq, Repr

/-- Result codes (R206). -/
inductive Code where
  | noResult
  | ok
  | busy
  | state
  | range
  | stale
  | incomplete
  | rejected
  | interlock
  | unknown
  | badWafer
  | waferBusy
  | badDest
  | notHome
  | destUncertain
  | destReserved
  | destOccupied
  | stageBusy
  deriving DecidableEq, Repr

/-- An access on the memory port (R2, R19). -/
structure MemAccess where
  addr  : Nat
  write : Bool
  words : List (BitVec 4 × Word)
  deriving DecidableEq, Repr

/-! ### Plan unit (chapter 2) -/

/-- The values of a valid plan, clamped (R27). -/
structure Plan where
  handlingBase : Nat
  stageBase : Nat
  focusBase : Nat
  defectBase : Nat
  lotBase : Nat
  ringBase : Nat
  capacity : Nat
  ringLength : Nat
  coalesceCount : Nat
  coalesceTime : Nat
  maxAttempts : Nat
  focusSamples : Nat
  focusGain : Nat
  focusTolerance : Nat
  pitch : Nat
  x0 : Int
  y0 : Int
  zMin : Int
  zMax : Int
  nominalZ : Int
  travelXMin : Int
  travelXMax : Int
  travelYMin : Int
  travelYMax : Int
  arrivalWindow : Nat
  settleTime : Nat
  moveTimeout : Nat
  focusSettleTimeout : Nat
  sampleTimeout : Nat
  verdictTimeout : Nat
  robotAckTimeout : Nat
  robotDoneTimeout : Nat
  presenceDebounce : Nat
  bandHeight : Nat
  deriving DecidableEq, Repr

/-- The standings of the plan unit (R25). -/
inductive Standing where
  | starting
  | adopted
  | bare
  | committing
  deriving DecidableEq, Repr

/-- Validation results (R30, section 12.2). -/
inductive PlanResult where
  | accepted
  | signature
  | align
  | overlap
  | capacity
  | limits
  | pitch
  | workOpen
  deriving DecidableEq, Repr

/-- The work the plan unit has in hand: reading word `k` of the block (R32, R36), the first drain of a commit, or a
valid plan awaiting the adoption moment with its clamp fields (R36). -/
inductive PlanWork where
  | idle
  | reading (k : Nat)
  | draining
  | awaiting (plan : Plan) (clamps first : Nat)
  deriving DecidableEq, Repr

/-- The plan unit (section 2.1). The plan in force is `State.plan`. -/
structure PlanUnit where
  copies       : Table Word := []
  standing     : Standing := .starting
  work         : PlanWork := .reading 0
  commitResult : Code := .noResult
  validation   : PlanResult := .accepted
  offending    : Nat := 0
  clampCount   : Nat := 0
  firstClamp   : Nat := 0
  adoptions    : BitVec 16 := 0
  deriving DecidableEq, Repr

/-! ### Handling unit (chapters 3 and 4) -/

/-- A wafer's place (R41). -/
inductive Place where
  | pos (p : Nat)
  | inTransit
  | unknown
  deriving DecidableEq, Repr

/-- A wafer's progress (R41). -/
inductive Progress where
  | unmapped
  | new
  | loaded
  | aligned
  | reviewing
  | reviewed
  | partly
  deriving DecidableEq, Repr

/-- A wafer record (R41); `id` is the copy of word 0. -/
structure Wafer where
  id       : Word := 0
  place    : Place := .unknown
  progress : Progress := .unmapped
  suspect  : Bool := false
  member   : Bool := false
  visited  : Nat := 0
  lotTag   : BitVec 16 := 0
  deriving DecidableEq, Repr

/-- A position record (R42). -/
structure Position where
  occupant    : Option Nat := none
  uncertain   : Bool := false
  claim       : Option Nat := none
  reservation : Option Nat := none
  deriving DecidableEq, Repr

/-- Transfer slot states (R60). -/
inductive SlotState where
  | free
  | queued
  | sent
  | done
  | failed
  deriving DecidableEq, Repr

/-- Failure reasons of a transfer (R60). -/
inductive FailReason where
  | noReason
  | cancelled
  | badWafer
  | destUncertain
  | destBlocked
  | robotRefused
  | ackTimeout
  | robotFault
  | doneTimeout
  deriving DecidableEq, Repr

/-- A transfer slot (R60): the copies of words 0 and 1, the status word's fields, and its transfer. -/
structure Slot where
  waferCopy : Word := 0
  destCopy  : Word := 0
  st        : SlotState := .free
  acked     : Bool := false
  reason    : FailReason := .noReason
  goResult  : Code := .ok
  tag       : Byte := 0
  robotCode : Byte := 0
  wafer     : Nat := 0
  dest      : Nat := 0
  source    : Place := .pos 0
  deriving DecidableEq, Repr

/-- The robot receiver (R69): HUNT, or FRAME with the bytes collected after the start byte, oldest first, and the time
of the last byte. -/
inductive RobotRx where
  | hunt
  | frame (bytes : List Byte) (last : Nat)
  deriving DecidableEq, Repr

/-- The reply types of the robot (R68). -/
inductive ReplyKind where
  | ack
  | nak
  | done
  | fault
  deriving DecidableEq, Repr

/-- A non-slot position's debounce (R50): none, running since a moment, or elapsed while the mismatch lasts (log 25). -/
inductive Debounce where
  | idle
  | running (since : Nat)
  | elapsed
  deriving DecidableEq, Repr

/-- The handling unit. -/
structure Handling where
  wafers      : Table Wafer := []
  positions   : Table Position := []
  slots       : Table Slot := []
  queue       : List Nat := []
  held        : Bool := false
  result      : Code := .ok
  stage       : Option Nat := none
  prior       : Option Progress := none
  tagCounter  : Byte := 0
  ackTimer    : Option Nat := none
  doneTimer   : Option Nat := none
  rx          : RobotRx := .hunt
  orderFrame  : Option (List Byte) := none
  headWaits   : Bool := false
  declareWord : Word := 0
  mapPattern  : Word := 0
  pres        : BitVec 5 := 0
  debounce    : Table Debounce := []
  deriving DecidableEq, Repr

/-! ### Motion unit (chapter 5) -/

/-- One axis's encoder (R82, R83): count, phase last seen with A the higher bit, fault count. -/
structure Encoder where
  count  : Word := 0
  phase  : BitVec 2 := 0
  faults : Nat := 0
  deriving DecidableEq, Repr

/-- Move states (R87). -/
inductive MoveState where
  | idle
  | moving
  | settling
  | settled
  | timedOut
  | stopped
  | faulted
  deriving DecidableEq, Repr

/-- Stop causes (R87). -/
inductive StopCause where
  | noCause
  | interlock
  | disable
  | request
  deriving DecidableEq, Repr

/-- The shadow target's record (R95); the target is present when reachable. -/
structure Shadow where
  index  : Nat
  target : Option (Int × Int)
  seqNo  : BitVec 16
  deriving DecidableEq, Repr

/-- A stage link frame being shifted (R88), with its bytes and the time it began. -/
structure StageFrame where
  move  : Bool
  bytes : List Byte
  began : Nat
  deriving DecidableEq, Repr

/-- The motion unit. At the release the STOP frame with sequence number 0 is in the transmitter (R88, R102). -/
structure Motion where
  x           : Encoder := {}
  y           : Encoder := {}
  presetX     : Word := 0
  presetY     : Word := 0
  active      : Option (Int × Int) := none
  move        : MoveState := .idle
  stopCause   : StopCause := .noCause
  moveTimer   : Option Nat := none
  settleTimer : Option Nat := none
  shadow      : Option Shadow := none
  enable      : Bool := false
  interlock   : Bool := false
  awaiting    : Bool := false
  frame       : Option StageFrame := some { move := false, bytes := [0x11, 0, 0, 0, 0, 0, 0, 0, 0, 0, 0x11], began := 0 }
  heldMove    : Option (Int × Int) := none
  frameSeq    : Byte := 1
  trigCount   : Word := 0
  trigPulse   : Option Nat := none
  trigWait    : Bool := false
  result      : Code := .ok
  deriving DecidableEq, Repr

/-! ### Transform unit (chapter 6) -/

/-- A set of the ten coefficients as signed numbers (R105). -/
structure Coeffs where
  a11 : Int
  a12 : Int
  a21 : Int
  a22 : Int
  bx  : Int
  bY  : Int
  c11 : Int
  c12 : Int
  c21 : Int
  c22 : Int
  deriving DecidableEq, Repr

/-- The load-cycle position (R106). -/
inductive LoadPos where
  | at (k : Nat)
  | broken
  deriving DecidableEq, Repr

/-- A pending alignment commit (R110). -/
structure PendingCommit where
  wafer     : Nat
  candidate : Coeffs
  deriving DecidableEq, Repr

/-- An outstanding view with what its request latched (R117). -/
structure View where
  xCount : Word
  yCount : Word
  coeffs : Coeffs
  seqNo  : BitVec 16
  deriving DecidableEq, Repr

/-- The answers to a forward request (R114). -/
inductive FwdAnswer where
  | reachable (x y : Int) (seqNo : BitVec 16)
  | unreachable (seqNo : BitVec 16)
  | noTransform
  deriving DecidableEq, Repr

/-- The operation in the arithmetic engine's service (R119). A forward transform holds the answer computed with the
coefficients in force when its service began (R120); `discard` marks one whose result is to be discarded (R121). -/
inductive EngineOp where
  | forward (answer : FwdAnswer) (discard : Bool)
  | check (discard : Bool)
  | inverse
  deriving DecidableEq, Repr

/-- The view result words (R118). -/
structure ViewResult where
  waferX : Word := 0
  waferY : Word := 0
  xCount : Word := 0
  yCount : Word := 0
  number : BitVec 16 := 0
  seqNo  : BitVec 16 := 0
  satX   : Bool := false
  satY   : Bool := false
  deriving DecidableEq, Repr

/-- The transform unit. -/
structure Transform where
  copies        : Table Word := []
  inForce       : Option Coeffs := none
  loadPos       : LoadPos := .at 0
  pendingCommit : Option PendingCommit := none
  commitResult  : Code := .noResult
  seqNo         : BitVec 16 := 0
  devElement    : Nat := 0
  devMagnitude  : Nat := 0
  viewResult    : Code := .ok
  view          : Option View := none
  results       : ViewResult := {}
  service       : Option EngineOp := none
  seqPlace      : Option (Int × Int) := none
  commitPlace   : Bool := false
  viewPlace     : Bool := false
  deriving DecidableEq, Repr

/-! ### Focus unit (chapter 7) -/

/-- A focus map node (R124). -/
structure Node where
  height : Word := 0
  valid  : Bool := false
  count  : Nat := 0
  deriving DecidableEq, Repr

/-- Sources of a prediction (R127). -/
inductive Source where
  | interpolated
  | partly
  | fallback
  deriving DecidableEq, Repr

/-- A cell: corner indices and fractions (R125). -/
structure Cell where
  i  : Nat := 0
  j  : Nat := 0
  fx : Nat := 0
  fy : Nat := 0
  deriving DecidableEq, Repr

/-- A prediction (R127). -/
structure Prediction where
  z0      : Int := 0
  source  : Source := .interpolated
  clamped : Bool := false
  cell    : Cell := {}
  deriving DecidableEq, Repr

/-- Attempt kinds (R131). -/
inductive AttemptKind where
  | revisit
  | probe
  deriving DecidableEq, Repr

/-- Loop states of an attempt in progress (R131); IDLE is the absence of an attempt. -/
inductive LoopState where
  | predicting
  | awaitSettle
  | awaitSample
  | reading
  deriving DecidableEq, Repr

/-- Outcomes of a focus attempt (R128). -/
inductive FocusOutcome where
  | noOutcome
  | accepted
  | noCapture
  | notConverged
  | atLimit
  | focusTimeout
  | aborted
  deriving DecidableEq, Repr

/-- Timeout details (R128). -/
inductive TimeoutDetail where
  | noDetail
  | settle
  | sample
  deriving DecidableEq, Repr

/-- The attempt in progress (R132): the site, the prediction once it is served, the attempt's Z once it is set, the
sample number, the last sample read, and `ending` once an event has ended it and its step is still to be taken. -/
structure Attempt where
  x      : Int
  y      : Int
  kind   : AttemptKind
  loop   : LoopState := .predicting
  pred   : Option Prediction := none
  z      : Option Int := none
  sample : Nat := 0
  err    : BitVec 16 := 0
  ending : Bool := false
  deriving DecidableEq, Repr

/-- The last attempt word (R128). -/
structure LastAttempt where
  outcome : FocusOutcome := .noOutcome
  detail  : TimeoutDetail := .noDetail
  source  : Source := .interpolated
  clamped : Bool := false
  samples : Nat := 0
  err     : BitVec 16 := 0
  deriving DecidableEq, Repr

/-- An actuator frame being shifted (R130). -/
structure ActuatorFrame where
  bytes : List Byte
  began : Nat
  deriving DecidableEq, Repr

/-- The interpolator's service (R129): for the query place or the sequencer place, with the prediction read when the
service began. -/
structure PredService where
  forQuery : Bool
  pred     : Prediction
  discard  : Bool := false
  deriving DecidableEq, Repr

/-- The focus unit. `clearing` counts the clearings of the map with steps still untaken, and `learns` holds the learn
requests that wait for them (R129). -/
structure Focus where
  nodes        : Table Node := []
  base         : Word := 0
  lastZ        : Word := 0
  last         : LastAttempt := {}
  attempt      : Option Attempt := none
  settleTimer  : Option Nat := none
  sampleTimer  : Option Nat := none
  setpoint     : Option Word := none
  frame        : Option ActuatorFrame := none
  waitingFrame : Option Int := none
  fsettled     : Bool := false
  hsample      : Option Nat := none
  service      : Option PredService := none
  seqPlace     : Bool := false
  queryPlace   : Bool := false
  clearing     : Nat := 0
  learns       : List (Int × Int × Int) := []
  query        : Option (Int × Int) := none
  queryZ       : Word := 0
  queryPred    : Prediction := {}
  querySeq     : BitVec 16 := 0
  queryNearest : Nat := 0
  seedIndex    : Word := 0
  seedValue    : Word := 0
  queryX       : Word := 0
  queryY       : Word := 0
  ctlResult    : Code := .ok
  queryResult  : Code := .ok
  deriving DecidableEq, Repr

/-! ### Defect list unit (chapter 8) -/

/-- Defect states (R144). -/
inductive DefectState where
  | unlisted
  | pending
  | active
  | imaged
  | failed
  | skipped
  | quota
  | unreachable
  deriving DecidableEq, Repr

/-- Defect outcomes (R144). -/
inductive DefectOutcome where
  | noOutcome
  | imaged
  | rejected
  | moveTimeout
  | noCapture
  | notConverged
  | atLimit
  | focusTimeout
  | verdictTimeout
  | positionSuspect
  | reimage
  | coordinate
  | travel
  | quota
  deriving DecidableEq, Repr

/-- A defect record (R144): the copies of words 0 to 3 and the hardware fields. -/
structure Defect where
  x           : Word := 0
  y           : Word := 0
  info        : Word := 0
  tag         : Word := 0
  st          : DefectState := .unlisted
  attempts    : Nat := 0
  reviewClass : BitVec 4 := 0
  outcome     : DefectOutcome := .noOutcome
  acceptedZ   : Word := 0
  rank        : Nat := 0
  disposition : Code := .noResult
  deriving DecidableEq, Repr

/-- List states (R146). -/
inductive ListState where
  | empty
  | building
  | sealed
  deriving DecidableEq, Repr

/-- The defect list unit. -/
structure DefectList where
  recs       : Table Defect := []
  n          : Nat := 0
  list       : ListState := .empty
  sealResult : Code := .ok
  formed     : Bool := false
  order      : List Nat := []
  queue      : List Nat := []
  counts     : Table Nat := []
  imaged     : Table Nat := []
  quotas     : Table Word := []
  census     : Word := 0
  deriving DecidableEq, Repr

/-! ### Revisit sequencer (chapter 9) -/

/-- Sequencer states (R161). -/
inductive SeqState where
  | idle
  | ordering
  | ready
  | running
  | paused
  | halted
  | probing
  | done
  deriving DecidableEq, Repr

/-- Phases (R161, R162). -/
inductive Phase where
  | noPhase
  | select
  | target
  | move
  | settle
  | focus
  | expose
  | resolve
  deriving DecidableEq, Repr

/-- Pause reasons (R162). -/
inductive PauseReason where
  | noReason
  | host
  | trip
  | ring
  | fault
  deriving DecidableEq, Repr

/-- Causes of DONE (R182). -/
inductive DoneCause where
  | empty
  | stop
  | abandon
  deriving DecidableEq, Repr

/-- Probe outcomes (R181, section 12.6). -/
inductive ProbeOutcome where
  | noOutcome
  | inProgress
  | accepted
  | coordinate
  | travel
  | moveTimeout
  | noCapture
  | notConverged
  | atLimit
  | focusTimeout
  | positionSuspect
  | interlock
  | presence
  | abandoned
  | noTransform
  deriving DecidableEq, Repr

/-- A staged report record without its sequence number (R198). -/
structure Record where
  kind      : Nat
  qualifier : Nat
  wafer     : Nat
  w1        : Word
  w2        : Word
  w3        : Word
  deriving DecidableEq, Repr

/-- A staging wait (R176): a REVISIT record after which SELECT begins, or the entry into DONE, whose record is formed
when it is staged (R182). -/
inductive StagingWait where
  | revisit (rec : Record)
  | waferDone (cause : DoneCause)
  deriving DecidableEq, Repr

/-- What the outstanding forward request is for (R170, R172, R181). -/
inductive Purpose where
  | target
  | prefetch (index : Nat)
  | probe
  | discarded
  deriving DecidableEq, Repr

/-- The result that the focus unit hands to the sequencer beside the outcome, and that the sequencer keeps of its attempt:
the timeout detail, the accepted Z (0 but for an acceptance), Z0, the source, the cell of the prediction and the samples
used (R132, R136, R172, R181). The correction is accepted Z − Z0. -/
structure FocusResult where
  detail    : TimeoutDetail := .noDetail
  acceptedZ : Int := 0
  z0        : Int := 0
  source    : Source := .interpolated
  clamped   : Bool := false
  cell      : Option Cell := none
  samples   : Nat := 0
  deriving DecidableEq, Repr

/-- The revisit sequencer. `selecting`: a retirement has been made whose SELECT is still to be decided (R165, log 33). -/
structure Sequencer where
  st           : SeqState := .idle
  phase        : Phase := .noPhase
  reason       : PauseReason := .noReason
  fPause       : Bool := false
  fStop        : Bool := false
  fTrip        : Bool := false
  fHalt        : Bool := false
  fFault       : Bool := false
  sel          : Option Nat := none
  current      : Option Nat := none
  cx           : Int := 0
  cy           : Int := 0
  cPrior       : Nat := 0
  cTag         : Word := 0
  target       : Option (Int × Int) := none
  result       : Code := .ok
  focus        : FocusResult := {}
  prior        : Option (SeqState × PauseReason) := none
  probeX       : Word := 0
  probeY       : Word := 0
  px           : Int := 0
  py           : Int := 0
  probeOutcome : ProbeOutcome := .noOutcome
  probeResult  : FocusResult := {}
  probeCount   : BitVec 16 := 0
  verdictTimer : Option Nat := none
  staging      : Option StagingWait := none
  outstanding  : Option Purpose := none
  targetWait   : Bool := false
  selecting    : Bool := false
  vResult      : Code := .noResult
  vCode        : BitVec 2 := 0
  vIndex       : BitVec 12 := 0
  deriving DecidableEq, Repr

/-! ### Lot unit (chapter 10) -/

/-- Lot states (R185). -/
inductive LotState where
  | noLot
  | opened
  | closed
  deriving DecidableEq, Repr

/-- Close kinds (R185). -/
inductive CloseKind where
  | noClose
  | close
  | force
  deriving DecidableEq, Repr

/-- An attribute entry (R190). -/
structure Attribute where
  value     : Nat := 0
  wafer     : Nat := 0
  threshold : Word := 0
  tripped   : Bool := false
  first     : Bool := false
  deriving DecidableEq, Repr

/-- The lot unit. -/
structure Lot where
  st           : LotState := .noLot
  result       : Code := .ok
  tag          : BitVec 16 := 0
  expected     : Nat := 0
  joined       : Nat := 0
  tripped      : Bool := false
  firstTrip    : Nat := 0
  closeKind    : CloseKind := .noClose
  short        : Bool := false
  attrs        : Table Attribute := []
  sumLot       : Nat := 0
  cntLot       : Nat := 0
  sumWafer     : Nat := 0
  cntWafer     : Nat := 0
  hist         : Table Nat := []
  deferred     : Option Record := none
  tagCopy      : Word := 0
  expectedCopy : Word := 0
  holdCopy     : Word := 0
  deriving DecidableEq, Repr

/-! ### Report unit (chapter 11) -/

/-- Fault kinds, in the order of R202. -/
inductive FaultKind where
  | encoderX
  | encoderY
  | presence
  | transfer
  | interlock
  deriving DecidableEq, Repr

/-- An entry of the fault pending set (R202). -/
structure FaultEntry where
  pending : Bool := false
  repeats : Nat := 0
  place   : Nat := 0
  code    : BitVec 16 := 0
  time    : Word := 0
  deriving DecidableEq, Repr

/-- The nine events, in the order of R203. -/
inductive Event where
  | ownedWrite
  | partialTrigger
  | earlyRead
  | sealedWrite
  | consumerBad
  | linkError
  | linkStray
  | lotTrip
  | ringFull
  deriving DecidableEq, Repr

/-- The coalescing timer (R204). -/
inductive CoalesceTimer where
  | stopped
  | running (since : Nat)
  | expired
  deriving DecidableEq, Repr

/-- The report unit. `posted` is the record last posted, which is what the ring's words then hold (R9, R199). -/
structure Report where
  faultSlot     : Option Record := none
  handSlot      : Option Record := none
  seqSlot       : Option Record := none
  lotSlot       : Option Record := none
  producer      : Nat := 0
  unread        : Nat := 0
  stalls        : Nat := 0
  consumer      : Word := 0
  seqNo         : BitVec 16 := 0
  pendingFaults : Table FaultEntry := []
  events        : BitVec 9 := 0
  mask          : Word := 0
  coalesce      : CoalesceTimer := .stopped
  posted        : List Word := []
  deriving DecidableEq, Repr

/-! ### Steps -/

/-- A change of a word's value that a block has made at once, before the step that shows it (log 3): the bits that it
changed, and the word's value before it. -/
structure Unshown where
  word : WordRef
  bits : Word
  old  : Word
  deriving DecidableEq, Repr

/-- The producers of reports, in the order of the report unit's arbiter (R199). -/
inductive Producer where
  | fault
  | handling
  | sequencer
  | lot
  deriving DecidableEq, Repr

/-- A change of the move record, each in a step of its own that names the stage status words (R90 to R93). -/
inductive MoveStep where
  /-- the move start (R90) -/
  | start (x y : Int)
  /-- arrival begins to hold, and ceases to hold (R91) -/
  | arrive
  | leave
  /-- the settle timer that started at `since` reaches the settle time (R91) -/
  | settled (since : Nat)
  /-- the move timer that started at `since` reaches the move timeout (R92) -/
  | timedOut (since : Nat)
  /-- an illegal transition ends the move (R83, R93) -/
  | faulted
  /-- a stop request of the sequencer (R93) -/
  | stop
  /-- the MOVE frame held behind a STOP frame begins (R88) -/
  | frame
  deriving DecidableEq, Repr

/-- A step of a block, which may have to wait for free entries (R17, R18). But for `publish` and the step that carries
changes with it, an operation is carried out when its step is taken (log 3): until then the tables it would change keep
their values. -/
inductive StepOp where
  /-- the step of a change already made, whose work does not wait for its words (R161, R97, R133 and the like, log 3) -/
  | publish (changes : List Unshown)
  /-- the request word is finished (R11) -/
  | finishHost
  /-- a host request: the word and the value written (R11) -/
  | request (word : WordRef) (data : Word)
  /-- the result of an accepted sequencer control (R163) -/
  | controlResult
  /-- the judgement of a coefficient write (R108) -/
  | loadCycle (k : Nat) (full : Bool)
  /-- the judgement of a consumer write (R201) -/
  | consumer (be : BitVec 4) (data : Word)
  /-- the adoption steps from number k on (R33, R38) -/
  | adoption (k : Nat)
  /-- the last step of a refused start-up has been taken (R34) -/
  | startUpEnd
  /-- the MAP steps of a carrier from slot k on (R48) -/
  | mapSlot (carrier : Carrier) (k : Nat) (pattern : Word)
  /-- a DECLARE's own step (R54) -/
  | declareStep (w t : Nat)
  /-- a declared load and a declared departure (R55) -/
  | declaredLoad (w : Nat)
  | declaredDeparture (w : Nat)
  /-- a send attempt (R65) -/
  | sendAttempt
  /-- a robot reply (R70) -/
  | reply (kind : ReplyKind) (tag a : Byte)
  /-- the expiry of the ACK and DONE timers (R71, R74) -/
  | ackExpired
  | doneExpired
  /-- a persisting mismatch (R51) -/
  | presence (p : Nat) (missing : Bool)
  /-- wafer state changes asked of the handling unit (R112, R164, R176, R188) -/
  | aligned
  | reviewing
  | visited
  | clearMember (w : Nat)
  /-- the clearing step of the focus map with number k; `host` for CLEAR_MAP, which goes on with the next (R141, R143) -/
  | clearNodes (k : Nat) (host : Bool)
  /-- a learn request (R139) -/
  | learn (x y z : Int)
  /-- the endings of a focus attempt (R136, R137, R138) -/
  | focusEnd (outcome : FocusOutcome) (detail : TimeoutDetail)
  | focusRefused (kind : AttemptKind)
  | focusAbort (tell : Bool)
  /-- the sequencer takes the result of a focus attempt of a kind (R136, R172, R181) -/
  | focusResult (kind : AttemptKind) (outcome : FocusOutcome) (figures : FocusResult)
  /-- the choice of the arithmetic engine's arbiter, behind the other steps of its event (R119) -/
  | engineChoice
  /-- the posted-result steps (R118, R142) -/
  | viewPost
  | queryPost (pred : Prediction)
  /-- the end of an identity check (R111) -/
  | checkEnd
  /-- the departure's steps of the transform unit and of the focus unit (R122, R143) -/
  | departTransform (changes : List Unshown)
  | departFocus
  /-- the completion of a declared departure's notice, before which the control word is not finished (R55) -/
  | departureEnd
  /-- the record steps of the order build from record k on, the last of which is followed by the final step (R148) -/
  | buildRecord (k : Nat)
  /-- the second step of an unseal (R150) -/
  | clearImaged
  /-- the sequencer's requests to the defect list unit (R153, R154) -/
  | retire (d : Nat) (cause : DefectOutcome)
  | activate (d : Nat) (x y : Int)
  | failAttempt (outcome : DefectOutcome)
  /-- the request of an accepted verdict to the defect list unit (R154, R174) -/
  | verdict (code : Nat) (d : Nat) (reviewClass : BitVec 4)
  /-- the RETURN and the RETIRE of a move refused with RANGE (R171) -/
  | rangeReturn (d : Nat)
  | rangeRetire (d : Nat)
  /-- the SELECT that follows a retirement (R169, R170) -/
  | select
  /-- an abort of the revisit in progress, for an interlock or for a stage presence fault (R177, R179) -/
  | seqAbort (fault : Bool)
  /-- the end of a probe, with the focus attempt made for it as it stood at the event (R181) -/
  | probeEnd (outcome : ProbeOutcome) (attempt : Option Attempt)
  /-- RESOLVE's report and return to SELECT (R176) -/
  | resolveEnd (report : Bool)
  /-- a step of the move record, with the frame that it sends (R88, R90 to R93) -/
  | move (step : MoveStep)
  /-- a fill, a discard, and the sequencer's ask of the shadow target (R95, R96) -/
  | fillShadow (record : Shadow)
  | discardShadow
  | askShadow (d : Nat)
  /-- the departure's clearing of the active and shadow targets (R80, R94, R95) -/
  | departMotion
  /-- the image trigger of the revisit of a current defect (R101, R173) -/
  | trigger (current : Option Nat)
  /-- a counted hand-over to the lot unit, of an attribute and the wafer concerned, and whether it counts for the lot
  (R187, R190, R191) -/
  | count (attr : Nat) (wafer : Option Nat) (counted : Bool)
  /-- the three steps of the focus figures hand-over (R192, R193) -/
  | meanCorrection (c : Nat) (wafer : Option Nat) (counted : Bool)
  | maxCorrection (c : Nat) (wafer : Option Nat) (counted : Bool)
  | histogram (reviewClass : Nat) (counted : Bool)
  /-- a wafer's join, and the zeroing of a wafer value at a load (R187, R190) -/
  | lotJoin
  | zeroWafer (i : Nat)
  /-- the steps of an accepted OPEN: an attribute, eight histogram words, the lot state (R186) -/
  | openAttr (i : Nat)
  | openHist (k : Nat)
  | openState
  /-- the LOT report of a close, and its result (R185, R188, R189) -/
  | lotReport
  /-- a staging wait counted (R200) -/
  | stall
  /-- a posting, from the slot chosen (R199) -/
  | posting (slot : Producer)
  deriving DecidableEq, Repr

/-- The steps of one operation, which are taken one after another. -/
abbrev Task := List StepOp

/-! ### The host port -/

/-- What a host access that waits needs of the memory port once its turn comes (R10, R21, R22). -/
inductive HostWait where
  /-- the memory port -/
  | memory
  /-- a read of the H word at an address whose turn is still to come: the memory port, unless an entry for it is queued
  by then (R10) -/
  | hRead (addr : Nat)
  /-- a read of the H word at an address that has found no entry at its turn: the memory port, at whose grant it looks
  again (R10) -/
  | hLook (addr : Nat)
  /-- an alignment commit: the load-cycle steps of earlier coefficient writes, then the memory port (R22, R108) -/
  | loadCycle
  deriving DecidableEq, Repr

/-! ### The whole state -/

/-- The state of the part, of the memory it stands before, and of the queue of waiting commands. -/
structure State where
  /-- waiting commands, first in, first out (the model's own) -/
  pending  : List Instr := []
  /-- µs since the release of RESET_N -/
  now      : Nat := 0
  /-- the host's memory: canonical (address, byte) pairs -/
  mem      : List Host.Cell := []
  /-- RESET_N is asserted (R24) -/
  inReset  : Bool := false
  /-- PLAN_SEL as sampled at the release (R25) -/
  planSel  : BitVec 2 := 0
  /-- the host word last presented was finished (R1) -/
  hReady   : Bool := false
  /-- the read data last returned to the host (R1) -/
  hData    : List Word := []
  /-- the memory port's last access (R2) -/
  mAccess  : Option MemAccess := none
  /-- a request word is not finished (R11) -/
  hostBusy : Bool := false
  /-- the host access in progress has words to come (R4) -/
  hostMore : Bool := false
  /-- what the host access that waits at the port waits for (R21, log 28) -/
  hostWaits : Option HostWait := none
  /-- the plan whose windows are in force; none: the plan block alone (R4, R23) -/
  map      : Option Plan := none
  /-- the plan in force (R25) -/
  plan     : Option Plan := none
  /-- the write-back queue, head first (R16) -/
  queue    : List (Nat × Word) := []
  /-- the waiting steps, oldest first, in the tasks of their operations (R18) -/
  waiting  : List Task := []
  /-- the steps made by the event in progress, neither taken nor waiting (the model's own; empty between commands) -/
  made     : List Task := []
  /-- what the operation of the step in hand goes on with (the model's own; empty between commands) -/
  sequel   : Task := []
  /-- the words named by the step in hand (the model's own; empty between commands) -/
  named    : List WordRef := []
  /-- the free values used so far (the model's own, log 14) -/
  openCount : Nat := 0
  planU    : PlanUnit := {}
  hand     : Handling := {}
  motion   : Motion := {}
  xform    : Transform := {}
  focus    : Focus := {}
  defects  : DefectList := {}
  seq      : Sequencer := {}
  lot      : Lot := {}
  report   : Report := {}
  deriving DecidableEq, Repr

/-- The machine right after reset: RESET_N has been released with every sampled pin at its default level (log 5),
every block holds its reset values (R57, R81, R102, R122, R143, R159, R184, R197, R205), the plan unit is about to
read word 0 of the plan block (R32), and memory lists nothing (log 4). -/
def State.reset : State := {}

end Sys2Proof.Machine
end

