-- ==== Sys2Proof/Machine/Ops.lean ====
section
/-! DEFINITION. The named operations over tables, memory, bit fields, the write-back queue and the steps. -/

namespace Sys2Proof.Machine

/-! ### Tables -/

/-- The entry of a sparse table at a number, or the table's default. -/
def Table.get {α : Type} (dflt : α) : Table α → Nat → α
  | [], _ => dflt
  | (j, v) :: t, k => if k = j then v else if k < j then dflt else Table.get dflt t k

/-- A table with the entry at a number replaced. -/
def Table.set {α : Type} : Table α → Nat → α → Table α
  | [], k, v => [(k, v)]
  | (j, w) :: t, k, v =>
    if k < j then (k, v) :: (j, w) :: t else if k = j then (k, v) :: t else (j, w) :: Table.set t k v

/-- A table with every listed entry changed. -/
def Table.mapVals {α : Type} (f : α → α) (t : Table α) : Table α := t.map fun e => (e.1, f e.2)

/-! ### Memory: canonical (address, byte) pairs -/

/-- Read one byte; an address that is not listed reads `Config.unwrittenByte`. -/
def readByte : List Host.Cell → Nat → Byte
  | [], _ => Config.unwrittenByte
  | (b, v) :: m, a => if a = b then v else if a < b then Config.unwrittenByte else readByte m a

/-- Write one byte, keeping the canonical form: addresses rise, and no entry holds the unwritten byte. -/
def writeByte : List Host.Cell → Nat → Byte → List Host.Cell
  | [], a, v => if v = Config.unwrittenByte then [] else [(a, v)]
  | (b, w) :: m, a, v =>
    if a < b then (if v = Config.unwrittenByte then (b, w) :: m else (a, v) :: (b, w) :: m)
    else if a = b then (if v = Config.unwrittenByte then m else (a, v) :: m)
    else (b, w) :: writeByte m a v

/-- Every address of a memory lies above `lo`, addresses rise strictly, and no entry holds the unwritten byte. -/
def Memory.wfAbove : Option Nat → List Host.Cell → Bool
  | _, [] => true
  | lo, (a, v) :: m =>
    (match lo with | none => true | some l => decide (l < a)) && v != Config.unwrittenByte && Memory.wfAbove (some a) m

/-- The canonical form of a memory. -/
def Memory.wf (m : List Host.Cell) : Bool := Memory.wfAbove none m

/-- Byte lane `i` of a word, lane 0 the least significant (little-endian). -/
def lane (w : Word) (i : Nat) : Byte := w.extractLsb' (8 * i) 8

/-- The word of four byte lanes. -/
def ofLanes (b0 b1 b2 b3 : Byte) : Word := b3 ++ b2 ++ b1 ++ b0

/-- Read the little-endian word at an address. -/
def readWordAt (m : List Host.Cell) (a : Nat) : Word :=
  ofLanes (readByte m a) (readByte m (a + 1)) (readByte m (a + 2)) (readByte m (a + 3))

/-- Write lane `i` of a word at an address if its byte enable is set. -/
def writeLane (be : BitVec 4) (d : Word) (a i : Nat) (m : List Host.Cell) : List Host.Cell :=
  if be.getLsbD i then writeByte m (a + i) (lane d i) else m

/-- Write a word at an address under its byte enables. -/
def writeWordAt (m : List Host.Cell) (a : Nat) (be : BitVec 4) (d : Word) : List Host.Cell :=
  writeLane be d a 3 (writeLane be d a 2 (writeLane be d a 1 (writeLane be d a 0 m)))

/-- A word whose enabled lanes come from `new` and whose other lanes come from `old` (R6). -/
def mergeLanes (be : BitVec 4) (old new : Word) : Word :=
  ofLanes (if be.getLsbD 0 then lane new 0 else lane old 0) (if be.getLsbD 1 then lane new 1 else lane old 1)
    (if be.getLsbD 2 then lane new 2 else lane old 2) (if be.getLsbD 3 then lane new 3 else lane old 3)

/-- The memory port writes a word (R6, R19). -/
def State.memWrite (a : Nat) (be : BitVec 4) (d : Word) (s : State) : State :=
  { s with mem := writeWordAt s.mem a be d, mAccess := some { addr := a, write := true, words := [(be, d)] } }

/-! ### Bit fields and numbers -/

/-- A value placed in the field of `width` bits from bit `lo` of a word. -/
def field (lo width v : Nat) : Word := BitVec.ofNat 32 ((v % 2 ^ width) * 2 ^ lo)

/-- The value of the field of `width` bits from bit `lo` of a word. -/
def getField (w : Word) (lo width : Nat) : Nat := w.toNat / 2 ^ lo % 2 ^ width

/-- A flag placed at a bit. -/
def flag (lo : Nat) (b : Bool) : Word := field lo 1 b.toNat

/-- A field of `width` bits that may be absent: all ones when it is (R206). -/
def optField (lo width : Nat) (v : Option Nat) : Word := field lo width (v.getD (2 ^ width - 1))

/-- The word of a signed number, in two's complement. -/
def ofSigned (i : Int) : Word := BitVec.ofInt 32 i

/-- Clamp to [a, b] (spec/00_scope.md, "Arithmetic"). -/
def clampInt (a b v : Int) : Int := if v < a then a else if b < v then b else v

/-- A count that stops at its maximum (spec/00_scope.md, "Arithmetic"). -/
def satAdd (max a b : Nat) : Nat := min max (a + b)

/-- Division rounded half up, the floor taken towards minus infinity (spec/00_scope.md, "Arithmetic"). -/
def roundDiv (n d : Int) : Int := (n + d / 2).fdiv d

/-- The four bytes of a word, most significant first, as the links send them (R207). -/
def bigEndian (w : Word) : List Byte := [lane w 3, lane w 2, lane w 1, lane w 0]

/-- The sum of bytes modulo 256: the check byte of a frame (R68, R88, R130). -/
def byteSum : List Byte → Byte
  | [] => 0
  | b :: bs => b + byteSum bs

/-! ### Time -/

/-- Carry the clock to a moment that has been reached (log 16). -/
def State.clockTo (t : Nat) (s : State) : State := { s with now := max s.now t }

/-- Milliseconds since the release of RESET_N, wrapping modulo 2^32 (R198). -/
def State.msNow (s : State) : Word := BitVec.ofNat 32 (s.now / 1000)

/-- One tick of the 1 µs time base; the time base stands while RESET_N is asserted. -/
def State.tick (s : State) : State := if s.inReset then s else { s with now := s.now + 1 }

/-! ### Steps -/

/-- A block makes a step in the event in progress (R17). -/
def State.emit (op : StepOp) (s : State) : State := { s with made := s.made ++ [[op]] }

/-- A block makes the steps of one operation in the event in progress, to be taken one after another. -/
def State.emits (ops : Task) (s : State) : State := { s with made := s.made ++ [ops] }

/-- A block makes steps in the event in progress that each stand by themselves. -/
def State.emitEach (ops : List StepOp) (s : State) : State := { s with made := s.made ++ ops.map fun op => [op] }

/-- The operation of the step in hand goes on with further steps, ahead of those that it already has to come. -/
def State.goOn (ops : Task) (s : State) : State := { s with sequel := s.sequel ++ ops }

/-- The steps made and not yet taken, in the order in which they were made. -/
def untaken (s : State) : List StepOp := (s.waiting ++ s.made).flatten

/-- The step in hand names a word; a word is named once. -/
def nameWord (named : List WordRef) (w : WordRef) : List WordRef := if w ∈ named then named else named ++ [w]

/-- The step in hand names words, in order (R17). -/
def State.name (ws : List WordRef) (s : State) : State := { s with named := ws.foldl nameWord s.named }

/-- Whether an address has an entry in the queue. -/
def hasEntry (q : List (Nat × Word)) (a : Nat) : Bool := q.any fun e => e.1 == a

/-- The value of the entry queued for an address. -/
def entryFor (q : List (Nat × Word)) (a : Nat) : Option Word := (q.find? fun e => e.1 == a).map (·.2)

/-- A value for an address joins the queue: a queued entry is replaced in place, otherwise a new one joins the tail
(R17). -/
def putEntry : List (Nat × Word) → Nat × Word → List (Nat × Word)
  | [], e => [e]
  | f :: q, e => if f.1 = e.1 then e :: q else f :: putEntry q e

/-- The values of a step join the queue in the order the step names them (R17). -/
def putEntries (q : List (Nat × Word)) (es : List (Nat × Word)) : List (Nat × Word) := es.foldl putEntry q

/-- The number of free entries a step needs: its words without a queued entry (R17). -/
def entriesNeeded (q : List (Nat × Word)) (es : List (Nat × Word)) : Nat :=
  (es.filter fun e => !hasEntry q e.1).length

/-- The queue has as many free entries as the step needs (R17). -/
def fits (q : List (Nat × Word)) (es : List (Nat × Word)) : Bool :=
  q.length + entriesNeeded q es ≤ Config.queueEntries

end Sys2Proof.Machine
end

