-- ==== Sys2Proof/Machine/Operands.lean ====
section
/-! DEFINITION. Where the words of the windows lie and what class each has (chapters 1 and 12): the offsets, the window
map and the word-class map. -/

namespace Sys2Proof.Machine

/-! ### Window map (R4) -/

/-- The base of the plan block (R25). -/
def State.planBase (s : State) : Nat := Config.planBlockBase s.planSel

/-- Round up to a multiple of 4 KiB. -/
def roundUp4K (n : Nat) : Nat := (n + 4095) / 4096 * 4096

/-- The size of the defect window (R27). -/
def defectSize (p : Plan) : Nat := 4096 + 32 * p.capacity

/-- The size of the ring window (R27). -/
def ringSize (p : Plan) : Nat := roundUp4K (64 + 16 * p.ringLength)

/-- The base and size of a working window under a plan (R27); the plan block is no working window. -/
def winExtent (p : Plan) : Win → Nat × Nat
  | .plan => (0, 0)
  | .handling => (p.handlingBase, 4096)
  | .stage => (p.stageBase, 4096)
  | .focus => (p.focusBase, 4096)
  | .defect => (p.defectBase, defectSize p)
  | .lot => (p.lotBase, 4096)
  | .ring => (p.ringBase, ringSize p)

/-- The six working windows, in the order of R29. -/
def workingWindows : List Win := [.handling, .stage, .focus, .defect, .lot, .ring]

/-- The address of a window's word under a plan, or none where the window is not placed (R23). -/
def wordAddr (planBase : Nat) (plan : Option Plan) (w : WordRef) : Option Nat :=
  match w.win, plan with
  | .plan, _ => some (planBase + w.off)
  | _, none => none
  | win, some p => some ((winExtent p win).1 + w.off)

/-- The word of a window that holds an address (R2): the plan block first, then the working windows. -/
def decodeAddr (planBase : Nat) (map : Option Plan) (a : Nat) : Option WordRef :=
  if planBase ≤ a ∧ a < planBase + Config.planBlockSize then some ⟨.plan, (a - planBase) / 4 * 4⟩
  else match map with
    | none => none
    | some p =>
      (workingWindows.find? fun w => decide ((winExtent p w).1 ≤ a ∧ a < (winExtent p w).1 + (winExtent p w).2)).map
        fun w => ⟨w, (a - (winExtent p w).1) / 4 * 4⟩

/-- The two lowest address bits are ignored (R1). -/
def wordAligned (a : Nat) : Nat := a / 4 * 4

/-! ### The words of the windows (section 12.3) -/

def commitWord : WordRef := ⟨.plan, 0x8C⟩
def planStatusWords : List WordRef := [⟨.plan, 0x90⟩, ⟨.plan, 0x94⟩, ⟨.plan, 0x98⟩, ⟨.plan, 0x9C⟩]
/-- The `k`-th capability word (R31). -/
def capabilityWord (k : Nat) : WordRef := ⟨.plan, 0xA0 + 4 * k⟩

def waferStateWord (w : Nat) : WordRef := ⟨.handling, 16 * w + 8⟩
def waferTagWord (w : Nat) : WordRef := ⟨.handling, 16 * w + 12⟩
def positionWord (p : Nat) : WordRef := ⟨.handling, 0x320 + 4 * p⟩
def goWord (k : Nat) : WordRef := ⟨.handling, 0x400 + 16 * k + 8⟩
def slotWord (k : Nat) : WordRef := ⟨.handling, 0x400 + 16 * k + 12⟩
def handlingControl : WordRef := ⟨.handling, 0x440⟩
def handlingStatus : WordRef := ⟨.handling, 0x44C⟩

def stageControl : WordRef := ⟨.stage, 0x018⟩
def stageStatus : List WordRef := [⟨.stage, 0x01C⟩, ⟨.stage, 0x020⟩]
def trigCountWord : WordRef := ⟨.stage, 0x024⟩
def coefficientWord (k : Nat) : WordRef := ⟨.stage, 0x040 + 4 * k⟩
def alignmentCommitWord : WordRef := ⟨.stage, 0x068⟩
def transformStatus : List WordRef := [⟨.stage, 0x06C⟩, ⟨.stage, 0x070⟩, ⟨.stage, 0x074⟩, ⟨.stage, 0x078⟩]
def viewRequestWord : WordRef := ⟨.stage, 0x07C⟩
def viewResults : List WordRef :=
  [⟨.stage, 0x080⟩, ⟨.stage, 0x084⟩, ⟨.stage, 0x088⟩, ⟨.stage, 0x08C⟩, ⟨.stage, 0x090⟩]

def nodeWord (n k : Nat) : WordRef := ⟨.focus, 8 * n + 4 * k⟩
def focusControl : WordRef := ⟨.focus, 0x918⟩
def focusResultWord : WordRef := ⟨.focus, 0x91C⟩
def baseHeightWord : WordRef := ⟨.focus, 0x920⟩
def lastZWord : WordRef := ⟨.focus, 0x924⟩
def lastAttemptWord : WordRef := ⟨.focus, 0x928⟩
def loopStatusWord : WordRef := ⟨.focus, 0x92C⟩
def setpointWord : WordRef := ⟨.focus, 0x930⟩
def queryTriggerWord : WordRef := ⟨.focus, 0x93C⟩
def queryResults : List WordRef := [⟨.focus, 0x940⟩, ⟨.focus, 0x944⟩, ⟨.focus, 0x948⟩]

def sealWord : WordRef := ⟨.defect, 0x000⟩
def listStatus : WordRef := ⟨.defect, 0x004⟩
def seqControl : WordRef := ⟨.defect, 0x008⟩
def seqResultWord : WordRef := ⟨.defect, 0x00C⟩
def dispatchWords : List WordRef := [⟨.defect, 0x010⟩, ⟨.defect, 0x014⟩]
def verdictWord : WordRef := ⟨.defect, 0x018⟩
def verdictResultWord : WordRef := ⟨.defect, 0x01C⟩
def probeResults : List WordRef := [⟨.defect, 0x028⟩, ⟨.defect, 0x02C⟩]
/-- The per-state count word that holds the count of state number `st`, PENDING being 1 (R146). -/
def countWord (st : Nat) : WordRef := ⟨.defect, 0x088 + 4 * ((st - 1) / 2)⟩
def countWords : List WordRef := [⟨.defect, 0x088⟩, ⟨.defect, 0x08C⟩, ⟨.defect, 0x090⟩, ⟨.defect, 0x094⟩]
/-- The imaged count word that holds the count of a prior class (R146). -/
def imagedWord (c : Nat) : WordRef := ⟨.defect, 0x098 + 4 * (c / 2)⟩
def imagedWords : List WordRef := (List.range 8).map fun k => ⟨.defect, 0x098 + 4 * k⟩
def recordWord (d k : Nat) : WordRef := ⟨.defect, 0x1000 + 32 * d + 4 * k⟩

def lotControl : WordRef := ⟨.lot, 0x00C⟩
def lotStateWords : List WordRef := [⟨.lot, 0x010⟩, ⟨.lot, 0x014⟩]
def eventWord : WordRef := ⟨.lot, 0x01C⟩
def eventMaskWord : WordRef := ⟨.lot, 0x020⟩
/-- Word `k` of attribute entry `i`: value, wafer value, threshold, flags (R190). -/
def attrWord (i k : Nat) : WordRef := ⟨.lot, 0x100 + 16 * i + 4 * k⟩
def histWord (c : Nat) : WordRef := ⟨.lot, 0x200 + 4 * c⟩

def producerWord : WordRef := ⟨.ring, 0x00⟩
def consumerWord : WordRef := ⟨.ring, 0x04⟩
def unreadWord : WordRef := ⟨.ring, 0x08⟩
def stallWord : WordRef := ⟨.ring, 0x0C⟩
def ringRecordWord (i k : Nat) : WordRef := ⟨.ring, 0x40 + 16 * i + 4 * k⟩

/-! ### Word-class map (R5) -/

/-- The class of a word; `spare` is a P word of which no block keeps a copy (R5). -/
inductive WClass where
  | p
  | h
  | t
  | s
  | spare
  deriving DecidableEq, Repr

/-- Classes of the plan block (section 12.2). -/
def planClass (o : Nat) : WClass :=
  if o < 0x8C then .p else if o = 0x8C then .t else if o < 0xC4 then .h else .spare

/-- Classes of the handling window; the host note is a P word without a copy (R41). -/
def handlingClass (o : Nat) : WClass :=
  if o < 0x320 then (match o % 16 / 4 with | 0 => .p | 1 => .spare | _ => .h)
  else if o < 0x3FC then .h
  else if o < 0x400 then .spare
  else if o < 0x440 then (match o % 16 / 4 with | 0 => .p | 1 => .p | 2 => .t | _ => .h)
  else if o = 0x440 then .t
  else if o = 0x444 ∨ o = 0x448 then .p
  else if o = 0x44C then .h
  else if o = 0x450 then .s
  else .spare

/-- Classes of the stage window. -/
def stageClass (o : Nat) : WClass :=
  if o < 0x010 then .s
  else if o < 0x018 then .p
  else if o = 0x018 then .t
  else if o < 0x028 then .h
  else if o < 0x040 then .spare
  else if o < 0x068 then .p
  else if o = 0x068 then .t
  else if o < 0x07C then .h
  else if o = 0x07C then .t
  else if o < 0x094 then .h
  else .spare

/-- Classes of the focus window. -/
def focusClass (o : Nat) : WClass :=
  if o < 0x908 then .h
  else if o < 0x910 then .spare
  else if o < 0x918 then .p
  else if o = 0x918 then .t
  else if o < 0x934 then .h
  else if o < 0x93C then .p
  else if o = 0x93C then .t
  else if o < 0x94C then .h
  else .spare

/-- Classes of the defect window. -/
def defectClass (o : Nat) : WClass :=
  if o = 0x000 then .t
  else if o = 0x004 then .h
  else if o = 0x008 then .t
  else if o < 0x018 then .h
  else if o = 0x018 then .t
  else if o = 0x01C then .h
  else if o < 0x028 then .p
  else if o < 0x030 then .h
  else if o < 0x040 then .spare
  else if o < 0x084 then .p
  else if o = 0x084 then .s
  else if o < 0x0B8 then .h
  else if o < 0x100 then .spare
  else if o < 0x300 then .s
  else if o < 0x1000 then .spare
  else (match o % 32 / 4 with | 0 => .p | 1 => .p | 2 => .p | 3 => .p | 4 => .t | _ => .h)

/-- Classes of the lot window. -/
def lotClass (o : Nat) : WClass :=
  if o < 0x00C then .p
  else if o = 0x00C then .t
  else if o < 0x018 then .h
  else if o < 0x020 then .s
  else if o = 0x020 then .p
  else if o < 0x100 then .spare
  else if o < 0x200 then (if o % 16 / 4 = 2 then .p else .h)
  else if o < 0x240 then .h
  else .spare

/-- Classes of the ring window, whose words past the last record are spare (R5). -/
def ringClass (len o : Nat) : WClass :=
  if o = 0x04 then .p
  else if o < 0x10 then .h
  else if o < 0x40 then .spare
  else if o < 0x40 + 16 * len then .h
  else .spare

/-- The class of a window's word under the map in force (R5). -/
def wordClass (map : Option Plan) (w : WordRef) : WClass :=
  match w.win with
  | .plan => planClass w.off
  | .handling => handlingClass w.off
  | .stage => stageClass w.off
  | .focus => focusClass w.off
  | .defect => defectClass w.off
  | .lot => lotClass w.off
  | .ring => ringClass ((map.map (·.ringLength)).getD 0) w.off

/-- A word of the ring's record area (R9). -/
def isRingRecord (w : WordRef) : Bool := w.win == .ring && decide (0x40 ≤ w.off)

end Sys2Proof.Machine
end

