-- ==== Sys2Proof/Machine/Words.lean ====
section
/-! DEFINITION. The values of the part's words: how each H word and each S word is formed from the blocks' tables
(R206, sections 12.2 to 12.7). -/

namespace Sys2Proof.Machine

/-! ### Accessors -/

def State.wafer (s : State) (w : Nat) : Wafer := s.hand.wafers.get {} w
def State.posn (s : State) (p : Nat) : Position := s.hand.positions.get {} p
def State.slot (s : State) (k : Nat) : Slot := s.hand.slots.get {} k
def State.node (s : State) (n : Nat) : Node := s.focus.nodes.get {} n
def State.defect (s : State) (d : Nat) : Defect := s.defects.recs.get {} d
def State.attr (s : State) (i : Nat) : Attribute := s.lot.attrs.get {} i
def State.faultEntry (s : State) (k : Nat) : FaultEntry := s.report.pendingFaults.get {} k

def State.setWafer (w : Nat) (v : Wafer) (s : State) : State :=
  { s with hand := { s.hand with wafers := s.hand.wafers.set w v } }
def State.setPosn (p : Nat) (v : Position) (s : State) : State :=
  { s with hand := { s.hand with positions := s.hand.positions.set p v } }
def State.setSlot (k : Nat) (v : Slot) (s : State) : State :=
  { s with hand := { s.hand with slots := s.hand.slots.set k v } }
def State.setNode (n : Nat) (v : Node) (s : State) : State :=
  { s with focus := { s.focus with nodes := s.focus.nodes.set n v } }
def State.setDefect (d : Nat) (v : Defect) (s : State) : State :=
  { s with defects := { s.defects with recs := s.defects.recs.set d v } }
def State.setAttr (i : Nat) (v : Attribute) (s : State) : State :=
  { s with lot := { s.lot with attrs := s.lot.attrs.set i v } }

/-- The prior class of a record (section 12.6). -/
def Defect.priorClass (d : Defect) : Nat := getField d.info 0 4
/-- The size bin of a record. -/
def Defect.sizeBin (d : Defect) : Nat := getField d.info 8 8
/-- The priority of a record. -/
def Defect.priority (d : Defect) : Nat := getField d.info 16 2

/-- The slot whose transfer is SENT (R60, R66): at most one is. -/
def State.sentSlot (s : State) : Option Nat := [0, 1, 2, 3].find? fun k => (s.slot k).st == .sent

/-- The slot is QUEUED or SENT. -/
def Slot.open (t : Slot) : Bool := t.st == .queued || t.st == .sent

/-- The wafer on ST: the occupant of ST (R44). -/
def State.onStage (s : State) : Option Nat := (s.posn Config.posST).occupant

/-- ST has an occupant and it is the stage wafer (R109, R147, R164, R167, R180). -/
def State.stageWaferOnST (s : State) : Bool := s.onStage.isSome && s.onStage == s.hand.stage

/-- The progress of the stage wafer, UNMAPPED where there is none. -/
def State.stageProgress (s : State) : Progress :=
  match s.hand.stage with | none => .unmapped | some w => (s.wafer w).progress

/-- A non-slot position is compared (R49). -/
def State.compared (s : State) (p : Nat) : Bool :=
  let v := s.posn p
  !v.uncertain && v.claim.isNone && (!(p == Config.posUA || p == Config.posLA) || s.sentSlot.isNone)

/-- The level of the sensor of position 50 + k (R49). -/
def State.level (s : State) (k : Nat) : Bool := s.hand.pres.getLsbD k

/-- The debounce of position 50 + k (R50). -/
def State.debounce (s : State) (k : Nat) : Debounce := s.hand.debounce.get .idle k

/-- The debounce timer of position 50 + k, where it runs (R50). -/
def State.debounceTimer (s : State) (k : Nat) : Option Nat :=
  match s.debounce k with
  | .running t => some t
  | _ => none

/-- Set the debounce of position 50 + k. -/
def State.setDebounce (k : Nat) (v : Debounce) (s : State) : State :=
  { s with hand := { s.hand with debounce := s.hand.debounce.set k v } }

/-! ### Codes (R206: in the order of the defining rule unless chapter 12 gives codes) -/

def Code.num : Code → Nat
  | .noResult => 0 | .ok => 1 | .busy => 2 | .state => 3 | .range => 4 | .stale => 5 | .incomplete => 6
  | .rejected => 7 | .interlock => 8 | .unknown => 9 | .badWafer => 10 | .waferBusy => 11 | .badDest => 12
  | .notHome => 13 | .destUncertain => 14 | .destReserved => 15 | .destOccupied => 16 | .stageBusy => 17

def PlanResult.num : PlanResult → Nat
  | .accepted => 0 | .signature => 1 | .align => 2 | .overlap => 3 | .capacity => 4 | .limits => 5 | .pitch => 6
  | .workOpen => 7

def Place.num : Place → Nat
  | .pos p => p | .inTransit => 62 | .unknown => 63

def Progress.num : Progress → Nat
  | .unmapped => 0 | .new => 1 | .loaded => 2 | .aligned => 3 | .reviewing => 4 | .reviewed => 5 | .partly => 6

def SlotState.num : SlotState → Nat
  | .free => 0 | .queued => 1 | .sent => 2 | .done => 3 | .failed => 4

def FailReason.num : FailReason → Nat
  | .noReason => 0 | .cancelled => 1 | .badWafer => 2 | .destUncertain => 3 | .destBlocked => 4 | .robotRefused => 5
  | .ackTimeout => 6 | .robotFault => 7 | .doneTimeout => 8

def MoveState.num : MoveState → Nat
  | .idle => 0 | .moving => 1 | .settling => 2 | .settled => 3 | .timedOut => 4 | .stopped => 5 | .faulted => 6

def StopCause.num : StopCause → Nat
  | .noCause => 0 | .interlock => 1 | .disable => 2 | .request => 3

def LoadPos.num : LoadPos → Nat
  | .at k => k | .broken => 15

def Source.num : Source → Nat
  | .interpolated => 0 | .partly => 1 | .fallback => 2

def FocusOutcome.num : FocusOutcome → Nat
  | .noOutcome => 0 | .accepted => 1 | .noCapture => 2 | .notConverged => 3 | .atLimit => 4 | .focusTimeout => 5
  | .aborted => 6

def TimeoutDetail.num : TimeoutDetail → Nat
  | .noDetail => 0 | .settle => 1 | .sample => 2

def AttemptKind.num : AttemptKind → Nat
  | .revisit => 1 | .probe => 2

def LoopState.num : LoopState → Nat
  | .predicting => 1 | .awaitSettle => 2 | .awaitSample => 3 | .reading => 4

def DefectState.num : DefectState → Nat
  | .unlisted => 0 | .pending => 1 | .active => 2 | .imaged => 3 | .failed => 4 | .skipped => 5 | .quota => 6
  | .unreachable => 7

def DefectOutcome.num : DefectOutcome → Nat
  | .noOutcome => 0 | .imaged => 1 | .rejected => 2 | .moveTimeout => 3 | .noCapture => 4 | .notConverged => 5
  | .atLimit => 6 | .focusTimeout => 7 | .verdictTimeout => 8 | .positionSuspect => 9 | .reimage => 10
  | .coordinate => 11 | .travel => 12 | .quota => 13

def ListState.num : ListState → Nat
  | .empty => 0 | .building => 1 | .sealed => 2

def SeqState.num : SeqState → Nat
  | .idle => 0 | .ordering => 1 | .ready => 2 | .running => 3 | .paused => 4 | .halted => 5 | .probing => 6 | .done => 7

def Phase.num : Phase → Nat
  | .noPhase => 0 | .select => 1 | .target => 2 | .move => 3 | .settle => 4 | .focus => 5 | .expose => 6 | .resolve => 7

def PauseReason.num : PauseReason → Nat
  | .noReason => 0 | .host => 1 | .trip => 2 | .ring => 3 | .fault => 4

def DoneCause.num : DoneCause → Nat
  | .empty => 0 | .stop => 1 | .abandon => 2

def ProbeOutcome.num : ProbeOutcome → Nat
  | .noOutcome => 0 | .inProgress => 1 | .accepted => 2 | .coordinate => 3 | .travel => 4 | .moveTimeout => 5
  | .noCapture => 6 | .notConverged => 7 | .atLimit => 8 | .focusTimeout => 9 | .positionSuspect => 10
  | .interlock => 11 | .presence => 12 | .abandoned => 13 | .noTransform => 14

def LotState.num : LotState → Nat
  | .noLot => 0 | .opened => 1 | .closed => 2

def CloseKind.num : CloseKind → Nat
  | .noClose => 0 | .close => 1 | .force => 2

def FaultKind.num : FaultKind → Nat
  | .encoderX => 0 | .encoderY => 1 | .presence => 2 | .transfer => 3 | .interlock => 4

def Event.bit : Event → Nat
  | .ownedWrite => 0 | .partialTrigger => 1 | .earlyRead => 2 | .sealedWrite => 3 | .consumerBad => 4 | .linkError => 5
  | .linkStray => 6 | .lotTrip => 7 | .ringFull => 8

/-! ### H words -/

/-- The standing shown in the plan status (section 12.2): STARTING cannot be read, and the words formed at the end of
start-up show what start-up has come to (R33, R34). -/
def shownStanding (s : State) : Nat :=
  match s.planU.standing with
  | .adopted => 1
  | .bare => 2
  | .committing => 3
  | .starting => if s.plan.isSome then 1 else 2

/-- The capability words (R31). -/
def capabilities : List Nat := [50, 55, 4, 4096, 17, 16 + 16 * 2 ^ 16, 16, 16, 1024]

def planWord (s : State) (o : Nat) : Word :=
  if o = 0x90 then
    field 0 2 (shownStanding s) + field 4 4 s.planU.commitResult.num + field 8 4 s.planU.validation.num
      + field 16 6 s.planU.clampCount + field 24 8 s.planU.firstClamp
  else if o = 0x94 then field 0 8 s.planU.offending + field 16 16 s.planU.adoptions.toNat
  else if o = 0x98 then BitVec.ofNat 32 ((s.plan.map (·.capacity)).getD 0)
  else if o = 0x9C then BitVec.ofNat 32 ((s.plan.map (·.ringLength)).getD 0)
  else BitVec.ofNat 32 (capabilities.getD ((o - 0xA0) / 4) 0)

def waferWord (w : Wafer) : Word :=
  field 0 6 w.place.num + field 8 3 w.progress.num + flag 11 w.suspect + flag 12 w.member + field 16 13 w.visited

def positionValue (p : Position) : Word :=
  optField 0 6 p.occupant + flag 8 p.uncertain + optField 12 2 p.claim + flag 15 p.claim.isSome
    + optField 16 2 p.reservation + flag 19 p.reservation.isSome

def slotValue (t : Slot) : Word :=
  field 0 3 t.st.num + flag 3 t.acked + field 4 4 t.reason.num + field 8 5 t.goResult.num + field 16 8 t.tag.toNat
    + field 24 8 t.robotCode.toNat

def handlingWord (s : State) (o : Nat) : Word :=
  if o < 0x320 then
    (if o % 16 = 8 then waferWord (s.wafer (o / 16)) else field 0 16 (s.wafer (o / 16)).lotTag.toNat)
  else if o < 0x400 then positionValue (s.posn ((o - 0x320) / 4))
  else if o < 0x440 then slotValue (s.slot ((o - 0x400) / 16))
  else flag 0 s.hand.held + field 4 4 s.hand.result.num + optField 8 6 s.hand.stage

/-- Stage status 0 (R87); by R206 the motion enable field holds ENABLED as 0 and DISABLED as 1 (log 13). -/
def stageStatus0 (m : Motion) : Word :=
  flag 0 (!m.enable) + flag 1 m.interlock + flag 2 m.awaiting + field 4 3 m.move.num + field 8 2 m.stopCause.num
    + field 16 4 m.result.num + field 24 8 m.frameSeq.toNat

def stageStatus1 (m : Motion) : Word := optField 0 12 (m.shadow.map (·.index)) + flag 15 m.shadow.isSome

def transformStatus0 (x : Transform) : Word :=
  flag 0 x.inForce.isSome + field 4 4 x.loadPos.num + flag 8 x.pendingCommit.isSome + field 12 4 x.commitResult.num
    + field 20 4 x.viewResult.num

def viewSequence (r : ViewResult) : Word :=
  field 0 16 r.number.toNat + field 16 14 r.seqNo.toNat + flag 30 r.satX + flag 31 r.satY

def stageWord (s : State) (o : Nat) : Word :=
  let x := s.xform
  if o = 0x01C then stageStatus0 s.motion
  else if o = 0x020 then stageStatus1 s.motion
  else if o = 0x024 then s.motion.trigCount
  else if o = 0x06C then transformStatus0 x
  else if o = 0x070 then field 0 16 x.seqNo.toNat + field 16 8 x.devElement
  else if o = 0x074 then BitVec.ofNat 32 x.devMagnitude
  else if o = 0x078 then BitVec.ofNat 32 (x.devMagnitude / 2 ^ 32)
  else if o = 0x080 then x.results.waferX
  else if o = 0x084 then x.results.waferY
  else if o = 0x088 then x.results.xCount
  else if o = 0x08C then x.results.yCount
  else viewSequence x.results

/-- Word 1 of a node (R124); by R206 the valid flag holds valid as 0 and invalid as 1 (log 13). -/
def nodeWord1 (n : Node) : Word := flag 0 (!n.valid) + field 8 8 n.count

def lastAttemptValue (l : LastAttempt) : Word :=
  field 0 3 l.outcome.num + field 3 2 l.detail.num + field 8 2 l.source.num + flag 10 l.clamped + field 12 4 l.samples
    + field 16 16 l.err.toNat

def loopStatusValue (f : Focus) : Word :=
  (match f.attempt with
    | none => 0
    | some a => field 0 3 a.loop.num + field 4 2 a.kind.num + field 8 4 a.sample)
    + flag 12 f.setpoint.isSome

def queryDetail (p : Prediction) : Word :=
  field 0 2 p.source.num + flag 2 p.clamped + field 3 4 p.cell.i + field 7 4 p.cell.j + field 11 9 p.cell.fx
    + field 20 9 p.cell.fy

def focusWord (s : State) (o : Nat) : Word :=
  let f := s.focus
  if o < 0x908 then (if o % 8 = 0 then (s.node (o / 8)).height else nodeWord1 (s.node (o / 8)))
  else if o = 0x91C then field 0 4 f.ctlResult.num + field 8 4 f.queryResult.num
  else if o = 0x920 then f.base
  else if o = 0x924 then f.lastZ
  else if o = 0x928 then lastAttemptValue f.last
  else if o = 0x92C then loopStatusValue f
  else if o = 0x930 then f.setpoint.getD 0
  else if o = 0x940 then f.queryZ
  else if o = 0x944 then queryDetail f.queryPred
  else field 0 16 f.querySeq.toNat + field 16 9 f.queryNearest

def listStatusValue (l : DefectList) : Word :=
  field 0 2 l.list.num + field 4 13 l.n + field 20 4 l.sealResult.num

def dispatch0 (q : Sequencer) : Word :=
  field 0 4 q.st.num + field 4 4 q.phase.num + field 8 3 q.reason.num + flag 12 q.fPause + flag 13 q.fStop
    + flag 14 q.fTrip + flag 15 q.fHalt + flag 16 q.fFault
    + field 20 4 (match q.prior with | none => 15 | some p => p.1.num)
    + field 24 3 (match q.prior with | none => 0 | some p => p.2.num)

/-- The current attempt of a defect: its attempts plus one; where that is beyond 3, a free value within 1 to 3 (R162,
log 20). -/
def attemptShown (attempts : Nat) : Nat :=
  if attempts < 3 then attempts + 1 else (Config.openAttempt attempts).val + 1

/-- Dispatch 1 (R162). -/
def dispatch1 (s : State) : Word :=
  optField 0 12 s.seq.current + flag 15 s.seq.current.isSome
    + field 16 2 (match s.seq.current with | none => 0 | some d => attemptShown (s.defect d).attempts)

def verdictResultValue (q : Sequencer) : Word :=
  field 0 4 q.vResult.num + field 4 2 q.vCode.toNat + field 16 12 q.vIndex.toNat

def probeResult0 (q : Sequencer) : Word :=
  field 0 4 q.probeOutcome.num + field 4 2 q.probeResult.source.num + flag 6 q.probeResult.clamped
    + field 8 4 q.probeResult.samples + field 16 16 q.probeCount.toNat

/-- Two 16-bit halves, the low half first. -/
def halves (lo hi : Nat) : Word := field 0 16 lo + field 16 16 hi

def recordValue (d : Defect) (k : Nat) : Word :=
  if k = 5 then
    field 0 3 d.st.num + field 4 2 d.attempts + field 8 4 d.reviewClass.toNat + field 16 4 d.outcome.num
  else if k = 6 then d.acceptedZ
  else field 0 12 d.rank + field 16 4 d.disposition.num

def State.stateCount (s : State) (st : Nat) : Nat := s.defects.counts.get 0 st
def State.imagedCount (s : State) (c : Nat) : Nat := s.defects.imaged.get 0 c

def defectWord (s : State) (o : Nat) : Word :=
  if o = 0x004 then listStatusValue s.defects
  else if o = 0x00C then field 0 4 s.seq.result.num
  else if o = 0x010 then dispatch0 s.seq
  else if o = 0x014 then dispatch1 s
  else if o = 0x01C then verdictResultValue s.seq
  else if o = 0x028 then probeResult0 s.seq
  else if o = 0x02C then ofSigned s.seq.probeResult.acceptedZ
  else if o < 0x094 then
    let k := 2 * ((o - 0x088) / 4) + 1
    halves (s.stateCount k) (s.stateCount (k + 1))
  else if o = 0x094 then halves (s.stateCount 7) 0
  else if o < 0x0B8 then
    let c := 2 * ((o - 0x098) / 4)
    halves (s.imagedCount c) (s.imagedCount (c + 1))
  else recordValue (s.defect ((o - 0x1000) / 32)) (o % 32 / 4)

def lotState0 (l : Lot) : Word := field 0 16 l.tag.toNat + field 16 16 l.joined

def lotState1 (l : Lot) : Word :=
  field 0 2 l.st.num + field 4 4 l.result.num + flag 8 l.tripped + field 12 4 l.firstTrip + field 16 2 l.closeKind.num
    + flag 18 l.short + field 24 6 l.expected

def lotWord (s : State) (o : Nat) : Word :=
  if o = 0x010 then lotState0 s.lot
  else if o = 0x014 then lotState1 s.lot
  else if o < 0x200 then
    let a := s.attr ((o - 0x100) / 16)
    (match o % 16 / 4 with
      | 0 => BitVec.ofNat 32 a.value
      | 1 => BitVec.ofNat 32 a.wafer
      | _ => flag 0 a.tripped + flag 1 a.first)
  else BitVec.ofNat 32 (s.lot.hist.get 0 ((o - 0x200) / 4))

def ringWord (s : State) (o : Nat) : Word :=
  if o = 0x00 then field 0 16 s.report.producer
  else if o = 0x08 then field 0 16 s.report.unread
  else if o = 0x0C then field 0 16 s.report.stalls
  else s.report.posted.getD ((o - 0x40) % 16 / 4) 0

/-- The value that the owning block's table holds for an H word (R8, R206). -/
def hWord (s : State) (w : WordRef) : Word :=
  match w.win with
  | .plan => planWord s w.off
  | .handling => handlingWord s w.off
  | .stage => stageWord s w.off
  | .focus => focusWord s w.off
  | .defect => defectWord s w.off
  | .lot => lotWord s w.off
  | .ring => ringWord s w.off

/-- The changes made at once that a step is to show (log 3). -/
def StepOp.unshown : StepOp → List Unshown
  | .publish cs => cs
  | .departTransform cs => cs
  | _ => []

/-- A word's value before a change made at once. -/
def Unshown.undo (w : WordRef) (v : Word) (c : Unshown) : Word :=
  if c.word = w then (v &&& ~~~c.bits) ||| (c.old &&& c.bits) else v

/-- The value of an H word as the steps taken have left it: without the changes made at once whose steps are untaken,
undone from the last to the first (R8, R18, log 3). -/
def shownWord (s : State) (w : WordRef) : Word :=
  (untaken s).foldr (fun op v => op.unshown.foldl (Unshown.undo w) v) (hWord s w)

/-- The queue entries of words: the address of each that lies in a window in force, with the value that it shows
(R17, R34). -/
def wordEntries (s : State) (ws : List WordRef) : List (Nat × Word) :=
  ws.filterMap fun w => (wordAddr s.planBase s.plan w).map fun a => (a, shownWord s w)

/-! ### S words -/

/-- A live record matches the census settings (R157). -/
def censusMatch (s : State) (d : Nat) : Bool :=
  let r := s.defect d
  let c := s.defects.census
  decide (d < s.defects.n) && r.st != .unlisted && c.getLsbD (r.st.num - 1)
    && (!c.getLsbD 12 || r.priorClass == getField c 8 4)
    && (!c.getLsbD 20 || r.reviewClass.toNat == getField c 16 4)

/-- Census word k (R158). -/
def censusWord (s : State) (k : Nat) : Word :=
  BitVec.ofNat 32 (((List.range 32).filter fun b => censusMatch s (32 * k + b)).foldl (fun a b => a + 2 ^ b) 0)

/-- The census count (R158). -/
def censusCount (s : State) : Nat := ((List.range s.defects.n).filter fun d => censusMatch s d).length

/-- The presence pattern (R53). -/
def presencePattern (s : State) : Word :=
  (List.range 5).foldl
    (fun a k => a + flag (4 * k) (s.level k) + flag (4 * k + 1) (s.compared (50 + k))
      + flag (4 * k + 2) (s.debounceTimer k).isSome) 0

/-- The value with which the part answers a read of an S word (R13). -/
def sWord (s : State) (w : WordRef) : Word :=
  match w.win with
  | .handling => presencePattern s
  | .stage =>
    if w.off = 0x000 then s.motion.x.count
    else if w.off = 0x004 then s.motion.y.count
    else if w.off = 0x008 then field 0 16 s.motion.x.faults
    else field 0 16 s.motion.y.faults
  | .defect => if w.off = 0x084 then BitVec.ofNat 32 (censusCount s) else censusWord s ((w.off - 0x100) / 4)
  | .lot =>
    if w.off = 0x018 then (if s.lot.tripped then Config.lotTripped else Config.lotWithinLimits)
    else s.report.events.setWidth 32
  | _ => 0

/-! ### Naming helpers -/

/-- What a change made at once does to words, for the step that shows it (log 3). -/
def changesOf (s t : State) (ws : List WordRef) : List Unshown :=
  ws.map fun w => { word := w, bits := hWord s w ^^^ hWord t w, old := hWord s w }

/-- A change made at once, and the step that shows it in the words `ws`, for which the work does not wait (log 3). -/
def State.change (ws : List WordRef) (f : State → State) (s : State) : State :=
  (f s).emit (.publish (changesOf s (f s) ws))

/-- A change of the motion unit and the step of the stage status (R87). -/
def State.changeMotion (f : Motion → Motion) (s : State) : State :=
  s.change stageStatus fun s => { s with motion := f s.motion }

/-- A change of the sequencer and the step of the dispatch words (R161). -/
def State.changeSeq (f : Sequencer → Sequencer) (s : State) : State :=
  s.change dispatchWords fun s => { s with seq := f s.seq }

end Sys2Proof.Machine
end

