-- ==== Sys2Proof/Machine/Flags.lean ====
section
/-! DEFINITION. The report unit's flags and staging: the event word, the interrupt, the coalescing timer, the fault
pending set and the records that the producers stage (chapter 11). -/

namespace Sys2Proof.Machine

/-! ### Events and the interrupt -/

/-- A cause sets its event flag (R203). -/
def State.event (e : Event) (s : State) : State :=
  { s with report := { s.report with events := s.report.events ||| BitVec.ofNat 9 (2 ^ e.bit) } }

/-- The bits of a written word that its byte enables let through (R13, R203). -/
def enabledBits (be : BitVec 4) (d : Word) : Word := mergeLanes be 0 d

/-- A write to the event word clears each flag written as 1 in an enabled lane (R203). -/
def State.clearEvents (be : BitVec 4) (d : Word) (s : State) : State :=
  { s with report := { s.report with events := s.report.events &&& ~~~ (enabledBits be d).setWidth 9 } }

/-- The plan's coalesce count is reached (R204). -/
def coalesceReached (s : State) : Bool :=
  match s.plan with
  | none => false
  | some p => decide (p.coalesceCount ≤ s.report.unread)

/-- The level of IRQ, asserted or not (R204, R205). -/
def State.irq (s : State) : Bool :=
  !s.inReset && (coalesceReached s || (decide (0 < s.report.unread) && s.report.coalesce == .expired)
    || (s.report.events.setWidth 32 &&& s.report.mask) != 0)

/-! ### The fault pending set -/

/-- The fault kinds in the order listed (R202). -/
def faultKinds : List FaultKind := [.encoderX, .encoderY, .presence, .transfer, .interlock]

/-- The FAULT record of an entry, with the stage wafer as its wafer (R198, R202, section 12.7). -/
def faultRecord (s : State) (k : FaultKind) : Record :=
  let e := s.faultEntry k.num
  { kind := 4, qualifier := k.num, wafer := s.hand.stage.getD 63, w1 := BitVec.ofNat 32 e.place,
    w2 := halves e.repeats e.code.toNat, w3 := e.time }

/-- The first pending kind (R202). -/
def firstPending (s : State) : Option FaultKind := faultKinds.find? fun k => (s.faultEntry k.num).pending

/-- Whenever the fault slot is empty and the ring window is in force, the first pending kind is staged and its entry's
flag and count are cleared (R202). The window is taken to be in force from the adoption moment on: the model's choice
(log 38). -/
def State.stageFault (s : State) : State :=
  if s.report.faultSlot.isSome || s.plan.isNone then s
  else match firstPending s with
    | none => s
    | some k =>
      { s with report := { s.report with
          faultSlot := some (faultRecord s k)
          pendingFaults := s.report.pendingFaults.set k.num
            { s.faultEntry k.num with pending := false, repeats := 0 } } }

/-- The entry of a kind after the kind is made pending with a detail (R202). -/
def pendingEntry (e : FaultEntry) (place : Nat) (code : BitVec 16) (time : Word) : FaultEntry :=
  { pending := true, repeats := if e.pending then satAdd 65535 e.repeats 1 else 1, place := place, code := code,
    time := time }

/-- A block makes a fault kind pending (R202). -/
def State.makeFault (k : FaultKind) (place : Nat) (code : BitVec 16) (s : State) : State :=
  State.stageFault { s with report := { s.report with
    pendingFaults := s.report.pendingFaults.set k.num (pendingEntry (s.faultEntry k.num) place code s.msNow) } }

/-! ### Records -/

/-- The four words of a record with its sequence number (R198, section 12.7). -/
def recordWords (r : Record) (seqNo : BitVec 16) : List Word :=
  [field 0 3 r.kind + field 4 6 r.qualifier + field 10 6 r.wafer + field 16 16 seqNo.toNat, r.w1, r.w2, r.w3]

/-! ### The ring -/

/-- The ring has space: the unread count is below ring length − 1 (R199). -/
def ringSpace (s : State) : Bool :=
  match s.plan with
  | none => false
  | some p => decide (s.report.unread < p.ringLength - 1)

/-- The record in a producer's staging slot (R199). -/
def Report.slot (r : Report) : Producer → Option Record
  | .fault => r.faultSlot
  | .handling => r.handSlot
  | .sequencer => r.seqSlot
  | .lot => r.lotSlot

/-- A producer's staging slot emptied (R199). -/
def Report.clearSlot (r : Report) : Producer → Report
  | .fault => { r with faultSlot := none }
  | .handling => { r with handSlot := none }
  | .sequencer => { r with seqSlot := none }
  | .lot => { r with lotSlot := none }

/-- The slot that the arbiter chooses: fault, handling, sequencer, lot (R199). -/
def nextSlot (r : Report) : Option Producer :=
  [.fault, .handling, .sequencer, .lot].find? fun k => (r.slot k).isSome

/-- A posting has been made and its step waits (R199). -/
def posting (s : State) : Bool := (untaken s).any fun op => match op with | .posting _ => true | _ => false

/-- The timer after a posting that found `unread` records unread: it starts as the count goes from 0 to 1 (R204). -/
def coalesceAfterPost (s : State) : CoalesceTimer :=
  if s.report.unread = 0 then .running s.now else s.report.coalesce

/-- The timer after an adopted consumer write leaves `left` records unread (R204). -/
def coalesceAfterConsume (s : State) (left : Nat) : CoalesceTimer :=
  if left = 0 then .stopped else .running s.now

/-- The posting of a record from the ring's tables: the producer index and the unread count advance, the sequence
number is taken, and RING_FULL is reported when the ring has become full (R198, R199, R200). -/
def State.postRecord (p : Plan) (r : Record) (s : State) : State :=
  let i := s.report.producer
  let s1 := { s with report := { s.report with
      posted := recordWords r s.report.seqNo
      seqNo := s.report.seqNo + 1
      producer := (i + 1) % p.ringLength
      unread := s.report.unread + 1
      coalesce := coalesceAfterPost s } }
  let s2 := if s1.report.unread = p.ringLength - 1 then s1.event .ringFull else s1
  s2.name [ringRecordWord i 0, ringRecordWord i 1, ringRecordWord i 2, ringRecordWord i 3, producerWord, unreadWord]

/-- The judgement of a consumer write: the distance that it consumes, or none where it is rejected (R201). -/
def consumed (len unread old new : Nat) : Option Nat :=
  let d := ((new : Int) - (old : Int)).emod (len : Int) |>.toNat
  if new < len && d ≤ unread then some d else none

/-- The report unit judges the consumer word written, when the step of the write is taken; the judgements follow the
order of the writes (R201, log 3). -/
def State.judgeConsumer (be : BitVec 4) (data : Word) (s : State) : State :=
  let merged := mergeLanes be s.report.consumer data
  let len := (s.plan.map (·.ringLength)).getD 0
  match consumed len s.report.unread (getField s.report.consumer 0 16) (getField merged 0 16) with
  | none => s.event .consumerBad
  | some d =>
    let left := s.report.unread - d
    State.name [unreadWord] { s with report := { s.report with
      consumer := merged, unread := left, coalesce := coalesceAfterConsume s left } }

/-- A staging wait of the sequencer is counted (R200). -/
def State.countStall (s : State) : State :=
  State.name [stallWord] { s with report := { s.report with stalls := satAdd 65535 s.report.stalls 1 } }

end Sys2Proof.Machine
end

