-- ==== Sys2Proof/Machine/Lot.lean ====
section
/-! DEFINITION. The lot unit: the lot state, the attributes, the histogram, trips and the lot's controls
(chapter 10). -/

namespace Sys2Proof.Machine

/-- The largest value of a 32-bit count (R190). -/
def max32 : Nat := 4294967295
/-- The largest value of a 48-bit sum (R192). -/
def max48 : Nat := 281474976710655

/-! ### Hand-overs -/

/-- An attribute is one of 11 to 15, whose hand-overs may concern no wafer (R187). -/
def faultAttribute (i : Nat) : Bool := decide (11 ≤ i ∧ i ≤ 15)

/-- A hand-over counts for the lot (R187). -/
def countsForLot (s : State) (i : Nat) (wafer : Option Nat) : Bool :=
  s.lot.st == .opened &&
    match wafer with
    | some w => (s.wafer w).member
    | none => faultAttribute i

/-- A trip: the update counted for the lot, the threshold is not zero and the wafer value exceeds it (R194). -/
def trips (counted : Bool) (threshold : Word) (waferValue : Nat) : Bool :=
  counted && threshold != 0 && decide (threshold.toNat < waferValue)

/-- The TRIP record (R195, R198, section 12.7). -/
def tripRecord (s : State) (i : Nat) (a : Attribute) : Record :=
  { kind := 5, qualifier := 0, wafer := s.hand.stage.getD 63, w1 := s.lot.tag.setWidth 32,
    w2 := field 0 28 (min a.wafer (2 ^ 28 - 1)) + field 28 4 i, w3 := a.threshold }

/-- The trip hold notice to the sequencer: it has effect while RUNNING or PAUSED(RING) (R183). -/
def State.tripHold (s : State) : State :=
  if s.seq.st == .running || (s.seq.st == .paused && s.seq.reason == .ring) then
    s.changeSeq fun q => { q with fTrip := true }
  else s

/-- The lot's first trip: trip state, event, TRIP report, and the hold if it is asked for (R195). The trip state does not
wait for its step (R196). -/
def State.firstTrip (i : Nat) (a : Attribute) (s : State) : State :=
  let s1 := s.change lotStateWords fun s => { s with
    lot := { s.lot with tripped := true, firstTrip := i }
    report := { s.report with lotSlot := some (tripRecord s i a) } }
  let s2 := s1.event .lotTrip
  if s.lot.holdCopy.getLsbD 0 then s2.tripHold else s2

/-- An update of an attribute: its value and wafer value words in one step, with its flags word when the update trips
the attribute (R190, R194, R195). -/
def State.updateAttr (i : Nat) (value wafer : Nat) (counted judged : Bool) (s : State) : State :=
  let a := { s.attr i with value := value, wafer := wafer }
  if judged && trips counted a.threshold wafer then
    let first := !s.lot.tripped
    let b := { a with tripped := true, first := a.first || first }
    let s1 := (s.setAttr i b).name [attrWord i 0, attrWord i 1, attrWord i 3]
    if first then s1.firstTrip i b else s1
  else (s.setAttr i a).name [attrWord i 0, attrWord i 1]

/-- A counted hand-over (R187, R190, R191). -/
def State.countAttr (i : Nat) (wafer : Option Nat) (counted : Bool) (s : State) : State :=
  let a := s.attr i
  let value := if counted then satAdd max32 a.value 1 else a.value
  match wafer with
  | some _ => s.updateAttr i value (satAdd max32 a.wafer 1) counted true
  | none => if counted then s.updateAttr i value a.wafer counted false else s

/-- The step of a counted hand-over; whether it counts for the lot is settled as it is made (R187). -/
def countOp (s : State) (i : Nat) (wafer : Option Nat) : StepOp := .count i wafer (countsForLot s i wafer)

/-- A counted hand-over is made (R187). -/
def State.handOver (i : Nat) (wafer : Option Nat) (s : State) : State := s.emit (countOp s i wafer)

/-- The hand-over of a fault, whose wafer is the stage wafer where one is recorded (R187). -/
def State.countFault (i : Nat) (s : State) : State := s.handOver i s.hand.stage

/-- A hand-over that concerns the stage wafer (R187). -/
def State.countStage (i : Nat) (s : State) : State := s.handOver i s.hand.stage

/-- The mean of a sum over a count, rounded half up, or 0 (R192). -/
def meanOf (sum cnt : Nat) : Nat := if cnt = 0 then 0 else (sum + cnt / 2) / cnt

/-- Attribute 8, FOCUS_MEAN_ABS_CORRECTION (R192). -/
def State.meanStep (c : Nat) (wafer : Option Nat) (counted : Bool) (s : State) : State :=
  if wafer.isNone then s else
  let l := s.lot
  let l1 := { l with sumWafer := satAdd max48 l.sumWafer c, cntWafer := satAdd max32 l.cntWafer 1 }
  let l2 := if counted then { l1 with sumLot := satAdd max48 l.sumLot c, cntLot := satAdd max32 l.cntLot 1 } else l1
  let s1 := { s with lot := l2 }
  s1.updateAttr 8 (meanOf l2.sumLot l2.cntLot) (meanOf l2.sumWafer l2.cntWafer) counted true

/-- Attribute 9, FOCUS_MAX_ABS_CORRECTION (R192). -/
def State.maxStep (c : Nat) (wafer : Option Nat) (counted : Bool) (s : State) : State :=
  if wafer.isNone then s else
  let a := s.attr 9
  s.updateAttr 9 (if counted then max a.value c else a.value) (max a.wafer c) counted true

/-- The histogram (R193). -/
def State.histStep (cls : Nat) (counted : Bool) (s : State) : State :=
  if counted then
    State.name [histWord cls]
      { s with lot := { s.lot with hist := s.lot.hist.set cls (satAdd max32 (s.lot.hist.get 0 cls) 1) } }
  else s

/-- The steps of the focus figures hand-over: attributes 8 and 9 and the histogram (R192). -/
def figureOps (s : State) (correction : Int) (reviewClass : Nat) : Task :=
  let c := min correction.natAbs max32
  let counted := countsForLot s 8 s.hand.stage
  [.meanCorrection c s.hand.stage counted, .maxCorrection c s.hand.stage counted, .histogram reviewClass counted]

/-- The step of a load that zeroes the wafer value of an attribute, for attribute 8 with its wafer sum and count
(R190). -/
def State.zeroWafer (i : Nat) (s : State) : State :=
  let s1 := s.setAttr i { s.attr i with wafer := 0 }
  let s2 := if i = 8 then { s1 with lot := { s1.lot with sumWafer := 0, cntWafer := 0 } } else s1
  s2.name [attrWord i 1]

/-- A wafer joins the open lot (R187). -/
def State.lotJoin (s : State) : State :=
  State.name lotStateWords { s with lot := { s.lot with joined := satAdd 65535 s.lot.joined 1 } }

/-- The lot unit's steps of a load: the join, and the 16 zeroings (R79, R187, R190). -/
def loadSteps (joins : Bool) : Task :=
  (if joins then [StepOp.lotJoin] else []) ++ (List.range 16).map StepOp.zeroWafer

/-! ### Controls -/

/-- The result of the OPEN checks (R186). -/
def openCheck (s : State) : Code :=
  if s.lot.st == .opened then .state
  else if getField s.lot.tagCopy 0 16 = 0 ∨ 50 < s.lot.expectedCopy.toNat then .range
  else if s.report.lotSlot.isSome || s.lot.deferred.isSome then .busy
  else .ok

/-- The revisit sequencer is RUNNING, PROBING or HALTED (R188, R189). -/
def sequencerBusy (s : State) : Bool :=
  s.seq.st == .running || s.seq.st == .probing || s.seq.st == .halted

/-- A member wafer is away from its home slot (R188). -/
def memberAway (s : State) : Bool :=
  (List.range 50).any fun w => (s.wafer w).member && (s.wafer w).place != .pos w

/-- The result of the CLOSE checks (R188). -/
def closeCheck (s : State) : Code :=
  if s.lot.st != .opened then .state
  else if sequencerBusy s then .busy
  else if memberAway s then .busy
  else if s.report.lotSlot.isSome then .busy
  else .ok

/-- The result of the FORCE_CLOSE checks (R189). -/
def forceCheck (s : State) : Code :=
  if s.lot.st != .opened then .state
  else if sequencerBusy s then .busy
  else .ok

/-- The control's result code (R185). -/
def State.lotResult (c : Code) (s : State) : State := { s with lot := { s.lot with result := c } }

/-- The steps of an accepted OPEN, which begin to wait together; the step with the result code is the last (R185,
R186). -/
def openSteps : Task :=
  (List.range 16).map StepOp.openAttr ++ [.openHist 0, .openHist 1, .openState, .finishHost]

/-- OPEN's step of an attribute, for attribute 8 with the sums and counts (R186). -/
def State.openAttr (i : Nat) (s : State) : State :=
  let s1 := s.setAttr i { threshold := (s.attr i).threshold }
  let s2 := if i = 8 then { s1 with lot := { s1.lot with sumLot := 0, cntLot := 0, sumWafer := 0, cntWafer := 0 } } else s1
  s2.name [attrWord i 0, attrWord i 1, attrWord i 3]

/-- The histogram words of a half. -/
def histHalf (k : Nat) : List WordRef := (List.range 8).map fun c => histWord (8 * k + c)

/-- OPEN's step of eight histogram words (R186). -/
def State.openHist (k : Nat) (s : State) : State :=
  State.name (histHalf k) { s with lot := { s.lot with hist := s.lot.hist.filter fun e => e.1 / 8 != k } }

/-- OPEN's step of the lot state (R186). -/
def State.openState (s : State) : State :=
  let l := s.lot
  State.name lotStateWords { s with lot := { l with
    st := .opened, result := .ok, tag := l.tagCopy.setWidth 16, expected := l.expectedCopy.toNat, joined := 0,
    tripped := false, firstTrip := 0, closeKind := .noClose, short := false } }

/-- The short flag (R185). -/
def shortLot (s : State) : Bool := s.lot.expected != 0 && decide ((s.attr 0).value < s.lot.expected)

/-- The member wafers, in ascending index (R188). -/
def members (s : State) : List Nat := (List.range 50).filter fun w => (s.wafer w).member

/-- An accepted CLOSE or FORCE_CLOSE: a step of the lot state, then one step per member wafer, then the LOT report
(R188, R189). The step with the result code is the last (R185). -/
def State.endLot (kind : CloseKind) (s : State) : State :=
  let s1 := { s with lot := { s.lot with st := .closed, closeKind := kind, short := shortLot s } }
  (s1.name lotStateWords).emits ((members s).map StepOp.clearMember ++ [.lotReport, .finishHost])

/-- The LOT record (R188, R198, section 12.7). -/
def lotRecord (s : State) : Record :=
  let l := s.lot
  { kind := 6, qualifier := l.closeKind.num, wafer := 63, w1 := l.tag.setWidth 32,
    w2 := halves (min 65535 (s.attr 1).value) (min 65535 (s.attr 5).value),
    w3 := field 0 8 (min 255 (s.attr 0).value) + field 8 8 (min 255 l.joined) + field 16 6 l.expected
      + flag 22 l.tripped + field 24 4 l.firstTrip + flag 28 l.short }

/-- The LOT report is staged, or deferred while the lot staging slot holds a record (R189). -/
def State.stageLotReport (s : State) : State :=
  if s.report.lotSlot.isNone then { s with report := { s.report with lotSlot := some (lotRecord s) } }
  else { s with lot := { s.lot with deferred := some (lotRecord s) } }

/-- The last step of a close: the result code, and the LOT report (R185, R188, R189). -/
def State.lotReportStep (s : State) : State := (s.stageLotReport.lotResult .ok).name lotStateWords

/-- The lot staging slot has been emptied: a deferred LOT report is staged (R189, R199). -/
def State.stageDeferred (s : State) : State :=
  if s.report.lotSlot.isNone && s.lot.deferred.isSome then
    { s with report := { s.report with lotSlot := s.lot.deferred }, lot := { s.lot with deferred := none } }
  else s

/-- The handling unit clears a wafer's membership: one step naming its state word and its lot tag word (R188). -/
def State.clearMembership (w : Nat) (s : State) : State :=
  (s.setWafer w { s.wafer w with member := false, lotTag := 0 }).name [waferStateWord w, waferTagWord w]

/-- The lot unit takes its control word (R185). -/
def State.takeLotControl (d : Word) (s : State) : State :=
  let refuse (c : Code) : State := ((s.lotResult c).name lotStateWords).emit .finishHost
  match d.toNat with
  | 1 => if openCheck s == .ok then s.emits openSteps else refuse (openCheck s)
  | 2 => if closeCheck s == .ok then s.endLot .close else refuse (closeCheck s)
  | 3 => if forceCheck s == .ok then s.endLot .force else refuse (forceCheck s)
  | _ => refuse .unknown

end Sys2Proof.Machine
end

