-- ==== Sys2Proof/Machine/DefectList.lean ====
section
/-! DEFINITION. The defect list unit: the records and their counts, sealing and the order build, the order queue,
dispositions and quotas (chapter 8). -/

namespace Sys2Proof.Machine

/-! ### Counts and records -/

/-- The per-state counts after a record has gone from one state to another (R146). -/
def adjustCounts (t : Table Nat) (old new : DefectState) : Table Nat :=
  let t1 := if old == .unlisted then t else t.set old.num (t.get 0 old.num - 1)
  if new == .unlisted then t1 else t1.set new.num (t1.get 0 new.num + 1)

/-- The per-state count words that a change of state names (R146). -/
def stateWords (old new : DefectState) : List WordRef :=
  (if old == .unlisted then [] else [countWord old.num]) ++ (if new == .unlisted then [] else [countWord new.num])

/-- A record's hardware fields change in a step that names the words `ks` of the record and the per-state count words
concerned (R146). -/
def State.changeDefect (d : Nat) (r : Defect) (ks : List Nat) (s : State) : State :=
  let old := (s.defect d).st
  let s1 := s.setDefect d r
  State.name (ks.map (recordWord d) ++ stateWords old r.st)
    { s1 with defects := { s1.defects with counts := adjustCounts s1.defects.counts old r.st } }

/-- The PENDING count. -/
def State.pendingCount (s : State) : Nat := s.stateCount 1

/-- A record's signed coordinates. -/
def Defect.xy (d : Defect) : Int × Int := (d.x.toInt, d.y.toInt)

/-- The unlisted value of a record's hardware fields; the copies of the host fields and the last disposition result
are kept (R145). -/
def Defect.unlist (d : Defect) : Defect :=
  { x := d.x, y := d.y, info := d.info, tag := d.tag, disposition := d.disposition }

/-- The record is sealed (R151). -/
def sealedRecord (s : State) (d : Nat) : Bool := s.defects.list != .empty && decide (d < s.defects.n)

/-- The quota of a prior class is reached (R156). -/
def quotaReached (s : State) (c : Nat) : Bool :=
  let q := getField (s.defects.quotas.get 0 c) 0 13
  q != 0 && decide (q ≤ s.imagedCount c)

/-! ### The order build -/

/-- The band of a record (R148). -/
def band (bandHeight : Nat) (y : Int) : Int := (y + 200000000).fdiv bandHeight

/-- Record `a` comes before record `b` by the four keys, each with its index (R148). -/
def ranksBefore (bandHeight : Nat) (a b : Nat × Defect) : Bool :=
  let pa := a.2.priority
  let pb := b.2.priority
  let ba := band bandHeight a.2.y.toInt
  let bb := band bandHeight b.2.y.toInt
  let xa := a.2.x.toInt
  let xb := b.2.x.toInt
  if pa ≠ pb then decide (pb < pa)
  else if ba ≠ bb then decide (ba < bb)
  else if xa ≠ xb then (if ba % 2 = 0 then decide (xa < xb) else decide (xb < xa))
  else decide (a.1 < b.1)

/-- Insert a record into a ranked list. -/
def insertRanked (bandHeight : Nat) (a : Nat × Defect) : List (Nat × Defect) → List (Nat × Defect)
  | [] => [a]
  | b :: l => if ranksBefore bandHeight a b then a :: b :: l else b :: insertRanked bandHeight a l

/-- Rank a list of records. -/
def rankRecords (bandHeight : Nat) : List (Nat × Defect) → List (Nat × Defect)
  | [] => []
  | a :: l => insertRanked bandHeight a (rankRecords bandHeight l)

/-- The indices of the records below N in rank order (R148). -/
def formOrder (s : State) : List Nat :=
  let bandHeight := (s.plan.map (·.bandHeight)).getD 1
  (rankRecords bandHeight ((List.range s.defects.n).map fun d => (d, s.defect d))).map (·.1)

/-- The record of a build step: PENDING with its order rank (R148). -/
def builtRecord (r : Defect) (rank : Nat) : Defect :=
  { x := r.x, y := r.y, info := r.info, tag := r.tag, st := .pending, rank := rank }

/-- A record step of the order build, or the final step, in which the queue takes the indices and the sequencer enters
READY (R148, R161). -/
def State.buildStep (k : Nat) (s : State) : State :=
  if s.defects.list != .building then s
  else if k < s.defects.n then
    (s.changeDefect k (builtRecord (s.defect k) (s.defects.order.idxOf k)) [5, 6, 7]).goOn [.buildRecord (k + 1)]
  else
    let s1 := { s with defects := { s.defects with list := .sealed, queue := s.defects.order } }
    (s1.name [listStatus]).changeSeq fun q => { q with st := .ready, phase := .noPhase, reason := .noReason }

/-- The order has been formed: the record steps begin (R148). -/
def State.orderFormed (s : State) : State :=
  if s.defects.list == .building && !s.defects.formed then
    State.emit (.buildRecord 0) { s with defects := { s.defects with formed := true, order := formOrder s } }
  else s

/-! ### Seal, unseal and clearing -/

/-- The result of the checks of a seal of N records (R147). -/
def sealCheck (s : State) (n : Nat) : Code :=
  if s.seq.st != .idle then .state
  else if (s.plan.map (·.capacity)).getD 0 < n then .range
  else if !s.stageWaferOnST then .state
  else .ok

/-- The seal result. -/
def State.sealResult (c : Code) (s : State) : State := { s with defects := { s.defects with sealResult := c } }

/-- The list is cleared: every record unlisted, the queue empty, N 0, the counts 0 (R150, R159). -/
def State.clearList (s : State) : State :=
  { s with defects := { s.defects with
      recs := s.defects.recs.mapVals Defect.unlist, n := 0, list := .empty, formed := false, order := [],
      queue := [], counts := [], imaged := [] } }

/-- The second step of an unseal: the imaged counts (R150). -/
def State.clearImaged (s : State) : State :=
  State.name imagedWords { s with defects := { s.defects with imaged := [] } }

/-- An order build is withdrawn with its steps not yet taken (R160). -/
def State.withdrawBuild (s : State) : State :=
  let keep : StepOp → Bool := fun op => match op with | .buildRecord _ => false | _ => true
  { s with waiting := s.waiting.map (·.filter keep), made := s.made.map (·.filter keep) }

/-- The departure's clearing of the list, made at once, with its two steps (R80, R159, R160). -/
def State.departList (s : State) : State :=
  let s1 := s.withdrawBuild.clearList
  (s1.emit (.publish (changesOf s s1 (countWords ++ [listStatus])))).emit (.publish (changesOf s s1 imagedWords))

/-- The defect list unit takes the seal word (R147, R150). The first step of an unseal clears the list and the per-state
counts, the second the imaged counts. -/
def State.takeSeal (v : Word) (s : State) : State :=
  let refuse (c : Code) : State := ((s.sealResult c).name [listStatus]).emit .finishHost
  if v = 0 then
    if s.seq.st == .ready then
      let s1 := (s.clearList).sealResult .ok
      let s2 := { s1 with defects := { s1.defects with imaged := s.defects.imaged } }
      ((s2.name (countWords ++ [listStatus])).emits [.clearImaged, .finishHost]).changeSeq fun q =>
        { q with st := .idle, phase := .noPhase, reason := .noReason }
    else refuse .state
  else if sealCheck s v.toNat == .ok then
    let s1 := { s with defects := { s.defects with
      n := v.toNat, list := .building, sealResult := .ok, formed := false, order := [], queue := [] } }
    ((s1.name [listStatus]).emit .finishHost).changeSeq fun q =>
      { q with st := .ordering, phase := .noPhase, reason := .noReason }
  else refuse (sealCheck s v.toNat)

/-! ### Dispositions -/

/-- The result of the checks of a disposition (R155). -/
def dispositionCheck (s : State) (d : Nat) (v : Word) : Code :=
  if v ≠ 1 ∧ v ≠ 2 then .unknown
  else if s.defects.list == .building then .state
  else if s.defects.n ≤ d then .range
  else if v = 1 then (if (s.defect d).st == .pending then .ok else .state)
  else if (s.defect d).st == .skipped && s.seq.st != .done then .ok
  else .state

/-- The defect list unit takes a disposition word (R155); a skip is handed to the lot unit (R146, R191). -/
def State.takeDisposition (d : Nat) (v : Word) (s : State) : State :=
  let r := s.defect d
  if dispositionCheck s d v == .ok then
    if v = 1 then
      let s1 := s.changeDefect d { r with st := .skipped, disposition := .ok } [5, 7]
      State.emit .finishHost (State.countStage 2
        { s1 with defects := { s1.defects with queue := s1.defects.queue.erase d } })
    else
      let s1 := s.changeDefect d { r with st := .pending, disposition := .ok } [5, 7]
      State.emit .finishHost { s1 with defects := { s1.defects with queue := s1.defects.queue ++ [d] } }
  else
    ((s.setDefect d { r with disposition := dispositionCheck s d v }).name [recordWord d 7]).emit .finishHost

/-! ### The sequencer's requests (R153, R154) -/

/-- The named defect is PENDING and at the head of the queue (R153). -/
def pendingAtHead (s : State) (d : Nat) : Bool := (s.defect d).st == .pending && s.defects.queue.head? == some d

/-- The defect is ACTIVE (R154). -/
def isActive (s : State) (d : Nat) : Bool := (s.defect d).st == .active

/-- The queue without its head. -/
def State.popQueue (s : State) : State := { s with defects := { s.defects with queue := s.defects.queue.tail } }

/-- An accepted ACTIVATE (R153). -/
def State.activateDefect (d : Nat) (s : State) : State :=
  State.popQueue (s.changeDefect d { s.defect d with st := .active } [5])

/-- The attribute of a retirement with a cause (R191). -/
def retireAttr (cause : DefectOutcome) : Nat := if cause == .quota then 3 else 4

/-- An accepted RETIRE with its cause (R153). -/
def State.retireDefect (d : Nat) (cause : DefectOutcome) (s : State) : State :=
  let r := { s.defect d with st := if cause == .quota then .quota else .unreachable, outcome := cause }
  State.popQueue (s.changeDefect d r [5])

/-- IMAGE (R154). -/
def State.imageRecord (d : Nat) (cls : BitVec 4) (z : Int) (s : State) : State :=
  let r := s.defect d
  let c := r.priorClass
  let s1 := s.changeDefect d
    { r with st := .imaged, reviewClass := cls, acceptedZ := ofSigned z, outcome := .imaged } [5, 6]
  State.name [imagedWord c]
    { s1 with defects := { s1.defects with imaged := s1.defects.imaged.set c (s1.defects.imaged.get 0 c + 1) } }

/-- REJECT (R154). -/
def State.rejectRecord (d : Nat) (s : State) : State :=
  s.changeDefect d { s.defect d with st := .failed, outcome := .rejected } [5, 6]

/-- FAIL_ATTEMPT is answered RETRIED (R154). -/
def retried (s : State) (d : Nat) : Bool :=
  decide ((s.defect d).attempts + 1 < (s.plan.map (·.maxAttempts)).getD 1)

/-- FAIL_ATTEMPT (R154). -/
def State.failRecord (d : Nat) (outcome : DefectOutcome) (s : State) : State :=
  let r := { s.defect d with attempts := (s.defect d).attempts + 1, outcome := outcome }
  if retried s d then
    let s1 := s.changeDefect d { r with st := .pending } [5, 6]
    { s1 with defects := { s1.defects with queue := s1.defects.queue ++ [d] } }
  else s.changeDefect d { r with st := .failed } [5, 6]

/-- RETURN (R154). -/
def State.returnRecord (d : Nat) (s : State) : State :=
  let s1 := s.changeDefect d { s.defect d with st := .pending } [5, 6]
  { s1 with defects := { s1.defects with queue := d :: s1.defects.queue } }

end Sys2Proof.Machine
end

