-- ==== Sys2Proof/Machine/Motion.lean ====
section
/-! DEFINITION. The motion unit: encoder counting, the stage link, moves and arrival, the shadow target, the interlock
and the image trigger (chapter 5). -/

namespace Sys2Proof.Machine

/-- Change the motion unit's state. -/
def State.onMotion (f : Motion → Motion) (s : State) : State := { s with motion := f s.motion }

/-- The permission to send setpoints and image triggers (R89, R101). -/
def permission (s : State) : Bool := s.motion.enable && !s.motion.interlock

/-- A move is in progress (R93). -/
def moving (m : Motion) : Bool := m.move == .moving || m.move == .settling

/-! ### The stage link -/

/-- The 11 bytes of a MOVE frame (R88, R207). -/
def moveFrameBytes (n : Byte) (x y : Int) : List Byte :=
  let body := [0x10, n] ++ bigEndian (ofSigned x) ++ bigEndian (ofSigned y)
  body ++ [byteSum body]

/-- The 11 bytes of a STOP frame (R88, R207). -/
def stopFrameBytes (n : Byte) : List Byte :=
  let body := [0x11, n, 0, 0, 0, 0, 0, 0, 0, 0]
  body ++ [byteSum body]

/-- A MOVE frame begins with the current frame sequence number, which then increments (R88). -/
def Motion.beginMove (now : Nat) (x y : Int) (m : Motion) : Motion :=
  { m with frame := some { move := true, bytes := moveFrameBytes m.frameSeq x y, began := now },
           frameSeq := m.frameSeq + 1, heldMove := none }

/-- A STOP frame begins (R88). -/
def Motion.beginStop (now : Nat) (m : Motion) : Motion :=
  { m with frame := some { move := false, bytes := stopFrameBytes m.frameSeq, began := now },
           frameSeq := m.frameSeq + 1, heldMove := none }

/-- A MOVE frame is requested from the transmitter: held behind a STOP frame, otherwise begun, abandoning a MOVE frame
of an older move (R88, R93). A MOVE frame of an older move that is still held is replaced (log 31). -/
def Motion.requestMove (now : Nat) (x y : Int) (m : Motion) : Motion :=
  match m.frame with
  | some f => if f.move then m.beginMove now x y else { m with heldMove := some (x, y) }
  | none => m.beginMove now x y

/-- A STOP frame is requested: one in progress satisfies the request, a MOVE frame is abandoned, and a held MOVE frame
is discarded (R88). -/
def Motion.requestStop (now : Nat) (m : Motion) : Motion :=
  match m.frame with
  | some f => if f.move then m.beginStop now else { m with heldMove := none }
  | none => m.beginStop now

/-- The step of a held MOVE frame: the frame begins, if it is still held and no frame is being shifted (R88). -/
def State.heldFrameStep (s : State) : State :=
  match s.motion.heldMove, s.motion.frame with
  | some (x, y), none => (s.onMotion (Motion.beginMove s.now x y)).name stageStatus
  | _, _ => s

/-! ### Moves -/

/-- A move in progress ends early: both timers stop (R92, R93). -/
def Motion.endMove (st : MoveState) (cause : StopCause) (m : Motion) : Motion :=
  if moving m then { m with move := st, stopCause := cause, moveTimer := none, settleTimer := none } else m

/-- The stage has arrived at a target (R91). -/
def arrivedAt (window : Nat) (m : Motion) (x y : Int) : Bool :=
  decide ((m.x.count.toInt - x).natAbs ≤ window) && decide ((m.y.count.toInt - y).natAbs ≤ window)

/-- The stage has arrived at the active target of the move in progress, with the plan's arrival window (R91). -/
def arrived (s : State) : Bool :=
  match s.motion.active, s.plan with
  | some (x, y), some p => arrivedAt p.arrivalWindow s.motion x y
  | _, _ => false

/-- The sequencer's phase mirrors the move record (R171, R181). -/
def State.mirror (ph : Phase) (s : State) : State :=
  if (s.seq.st == .running || s.seq.st == .probing) && (s.seq.phase == .move || s.seq.phase == .settle)
      && s.seq.phase != ph then
    s.changeSeq fun q => { q with phase := ph }
  else s

/-- The plan's settle time (R91). -/
def settleTime (s : State) : Nat := (s.plan.map (·.settleTime)).getD 0

/-- The step in which the move record becomes SETTLED; the sequencer's notice is `State.settledNotice` (R91). -/
def State.settleMove (s : State) : State :=
  (s.onMotion fun m => { m with move := .settled, moveTimer := none, settleTimer := none }).name stageStatus

/-- The step in which arrival begins to hold: SETTLING, with the settle timer from zero (R91). -/
def State.beginSettling (s : State) : State :=
  State.mirror .settle
    ((s.onMotion fun m => { m with move := .settling, settleTimer := some s.now }).name stageStatus)

/-- The step in which arrival ceases to hold: MOVING again (R91). -/
def State.leaveStep (s : State) : State :=
  if s.motion.move == .settling then
    State.mirror .move ((s.onMotion fun m => { m with move := .moving, settleTimer := none }).name stageStatus)
  else s

/-- The move state that an operation leaves, as far as arrival is judged on it: `.idle` where no move is in progress, or
one is about to start and is judged at its start (R90 to R94). -/
def StepOp.moveAfter (op : StepOp) (noSettle : Bool) (m : MoveState) : MoveState :=
  match op with
  | .move .arrive => if m == .moving then (if noSettle then .settled else .settling) else m
  | .move .leave => if m == .settling then .moving else m
  | .move (.settled _) => if m == .settling then .settled else m
  | .move .frame => m
  | .move _ => .idle
  | .departMotion => .idle
  | _ => m

/-- The move state as the untaken steps of the move record will leave it; the next event of the move is judged on it
(R91, R92, log 3). -/
def expectedMove (s : State) : MoveState :=
  (untaken s).foldl (fun m op => op.moveAfter (settleTime s == 0) m) s.motion.move

/-- A move is in progress, and no untaken step ends it (R93). -/
def moveGoesOn (s : State) : Bool := expectedMove s == .moving || expectedMove s == .settling

/-- Arrival is judged at an encoder transition or at the move start: a change of it makes its step (R90, R91). -/
def State.judgeArrival (s : State) : State :=
  match expectedMove s with
  | .moving => if arrived s then s.emit (.move .arrive) else s
  | .settling => if arrived s then s else s.emit (.move .leave)
  | _ => s

/-- The answer to a move request (R89). -/
inductive MoveAnswer where
  | accepted
  | noPermission
  | outOfTravel
  deriving DecidableEq, Repr

/-- A target lies within the travel limits of a plan, each bound inclusive (R89, R115). -/
def withinTravel (p : Plan) (x y : Int) : Bool :=
  decide (p.travelXMin ≤ x ∧ x ≤ p.travelXMax ∧ p.travelYMin ≤ y ∧ y ≤ p.travelYMax)

/-- The two checks of a move request (R89). -/
def moveCheck (s : State) (x y : Int) : MoveAnswer :=
  if !permission s then .noPermission
  else match s.plan with
    | none => .outOfTravel
    | some p => if withinTravel p x y then .accepted else .outOfTravel

/-- The move start, while the sequencer still has this move to make and the permission holds (R89, R90, log 3). -/
def State.startStep (x y : Int) (s : State) : State :=
  if (s.seq.st == .running || s.seq.st == .probing) && s.seq.phase == .move && s.seq.target == some (x, y)
      && moveCheck s x y == .accepted then
    State.judgeArrival ((s.onMotion fun m =>
      { (m.requestMove s.now x y) with
          active := some (x, y), move := .moving, stopCause := .noCause, moveTimer := some s.now,
          settleTimer := none }).name stageStatus)
  else s

/-- The step of a stop request: a STOP frame even when no move is in progress; where a STOP frame in progress satisfies
it and no move ends, no word changes (R88, R93). -/
def State.stopStep (s : State) : State :=
  let m := (s.motion.endMove .stopped .request).requestStop s.now
  let t := s.onMotion fun _ => m
  if stageStatus0 m = stageStatus0 s.motion then t else t.name stageStatus

/-- A stop request from the revisit sequencer (R93). -/
def State.stopRequest (s : State) : State := s.emit (.move .stop)

/-- The step of a move that an illegal transition ends (R83, R93). -/
def State.faultedStep (s : State) : State :=
  if moving s.motion then
    (s.onMotion fun m => (m.endMove .faulted .noCause).requestStop s.now).name stageStatus
  else s

/-! ### Encoders -/

/-- The place of a phase (A, B), A the higher bit, in the up order (R82). -/
def phaseIndex (ph : BitVec 2) : BitVec 2 :=
  match ph.toNat with
  | 0 => 0
  | 2 => 1
  | 3 => 2
  | _ => 3

/-- An axis's encoder after a transition to a phase, and whether the transition was illegal (R82, R83). -/
def Encoder.transition (e : Encoder) (ph : BitVec 2) : Encoder × Bool :=
  let d := phaseIndex ph - phaseIndex e.phase
  if d = 1 then ({ e with count := e.count + 1, phase := ph }, false)
  else if d = 3 then ({ e with count := e.count - 1, phase := ph }, false)
  else if d = 2 then ({ e with faults := satAdd 65535 e.faults 1, phase := ph }, true)
  else (e, false)

/-- The encoder of an axis. -/
def Motion.encoder (m : Motion) : Axis → Encoder
  | .x => m.x
  | .y => m.y

/-- Replace the encoder of an axis. -/
def Motion.setEncoder (m : Motion) : Axis → Encoder → Motion
  | .x, e => { m with x := e }
  | .y, e => { m with y := e }

/-- The detail code of an ENCODER fault: the phase last seen in b16-17 and the new phase in b18-19 of the record's
word 2 (section 12.7). -/
def encoderCode (last new : BitVec 2) : BitVec 16 := BitVec.ofNat 16 (last.toNat + 4 * new.toNat)

/-- The effects of an illegal transition besides the encoder's own: the fault, the hand-over to the lot unit, the end of
a move in progress (R83, R93). The sequencer's notice is `State.encoderNotice`. -/
def State.illegalTransition (axis : Axis) (last new : BitVec 2) (s : State) : State :=
  let s1 := match axis with
    | .x => s.makeFault .encoderX 0 (encoderCode last new)
    | .y => s.makeFault .encoderY 1 (encoderCode last new)
  let s2 := s1.countFault 11
  if moveGoesOn s then s2.emit (.move .faulted) else s2

/-- A transition of an axis (R82, R83, R91). -/
def State.encoderTransition (axis : Axis) (ph : BitVec 2) (s : State) : State :=
  let e := s.motion.encoder axis
  let r := e.transition ph
  let s1 := s.onMotion fun m => m.setEncoder axis r.1
  if r.2 then s1.illegalTransition axis e.phase ph else if ph = e.phase then s else s1.judgeArrival

/-! ### The shadow target -/

/-- The step that fills the shadow target, replacing any record it held (R95). -/
def State.fillShadow (r : Shadow) (s : State) : State :=
  (s.onMotion fun m => { m with shadow := some r }).name stageStatus

/-- The step that empties the shadow target (R95). -/
def State.discardShadow (s : State) : State := (s.onMotion fun m => { m with shadow := none }).name stageStatus

/-- The shadow matches a defect index and the transform sequence number in force (R96). -/
def shadowMatch (s : State) (d : Nat) : Option Shadow :=
  s.motion.shadow.filter fun r => r.index == d && r.seqNo == s.xform.seqNo

/-! ### Requests -/

/-- The control result of the stage (R85). -/
def State.stageResult (c : Code) (s : State) : State := s.onMotion fun m => { m with result := c }

/-- PRESET (R86). -/
def State.takePreset (s : State) : State :=
  if s.seq.st == .running || s.seq.st == .probing then s.stageResult .state
  else s.onMotion fun m =>
    { m with
      x := { m.x with count := m.presetX }, y := { m.y with count := m.presetY }, active := none, shadow := none,
      move := .idle, stopCause := .noCause, moveTimer := none, settleTimer := none, result := .ok }

/-- MOTION_ENABLE (R99). -/
def State.takeEnable (s : State) : State :=
  if s.motion.interlock then s.stageResult .interlock
  else s.onMotion fun m => { m with enable := true, awaiting := false, result := .ok }

/-- The motion unit's part of MOTION_DISABLE (R100). A MOVE frame that is held behind a STOP frame is discarded, also where
its move has SETTLED already, so that no STOP is requested: R89 forbids its beginning while motion is disabled, R88 lets it
begin at the STOP frame's end, and that it is lost even if MOTION_ENABLE comes before that end is the model's choice
(log 41). -/
def State.takeDisable (s : State) : State :=
  let m := if moving s.motion then (s.motion.endMove .stopped .disable).requestStop s.now else s.motion
  { s with motion := { m with enable := false, heldMove := none, result := .ok } }

/-- The motion unit's part of an interlock assertion (R97). -/
def State.takeAssert (s : State) : State :=
  s.changeMotion fun m =>
    { ((m.endMove .stopped .interlock).requestStop s.now) with enable := false, interlock := true, awaiting := false }

/-- The motion unit's part of an interlock release (R98). -/
def State.takeRelease (s : State) : State :=
  s.changeMotion fun m => { m with interlock := false, awaiting := true }

/-- The step of a granted image trigger (R101). -/
def State.grantTrigger (s : State) : State :=
  (s.onMotion fun m => { m with trigCount := m.trigCount + 1, trigPulse := some s.now, trigWait := false }).name
    [trigCountWord]

/-- The departure's step of the motion unit: the active and shadow targets become empty (R80, R94, R95). -/
def State.departMotionStep (s : State) : State :=
  (s.onMotion fun m =>
    { m with active := none, move := .idle, stopCause := .noCause, shadow := none, moveTimer := none,
             settleTimer := none }).name stageStatus

end Sys2Proof.Machine
end

