-- ==== Sys2Proof/Machine/Transform.lean ====
section
/-! DEFINITION. The transform unit: the load cycle, alignment commits, the forward and inverse transforms, views and
the arithmetic engine (chapter 6). -/

namespace Sys2Proof.Machine

/-- Change the transform unit's state. -/
def State.onXform (f : Transform → Transform) (s : State) : State := { s with xform := f s.xform }

/-- The coefficients that the ten copies hold (R105). -/
def coefficients (t : Table Word) : Coeffs :=
  let c := fun k => (Table.get (0 : Word) t k).toInt
  { a11 := c 0, a12 := c 1, a21 := c 2, a22 := c 3, bx := c 4, bY := c 5, c11 := c 6, c12 := c 7, c21 := c 8, c22 := c 9 }

/-! ### The load cycle -/

/-- The load-cycle position after a write of coefficient word `k`, full or partial (R107). -/
def loadNext (p : LoadPos) (k : Nat) (full : Bool) : LoadPos :=
  if !full then .broken
  else if k = 0 then .at 1
  else if p == .at k then .at (k + 1)
  else .broken

/-- The judgement step of a coefficient write (R108). -/
def State.loadCycleStep (k : Nat) (full : Bool) (s : State) : State :=
  State.name transformStatus (s.onXform fun x => { x with loadPos := loadNext x.loadPos k full })

/-! ### Arithmetic -/

/-- The forward transform of an accepted position (R115). -/
def forwardTarget (c : Coeffs) (x y : Int) : Int × Int :=
  (roundDiv (c.a11 * x + c.a12 * y) (2 ^ 30) + c.bx, roundDiv (c.a21 * x + c.a22 * y) (2 ^ 30) + c.bY)

/-- A coordinate pair is in the accepted range (R114). -/
def acceptedCoordinates (x y : Int) : Bool :=
  decide ((x.natAbs : Int) ≤ Config.coordinateLimit) && decide ((y.natAbs : Int) ≤ Config.coordinateLimit)

/-- The answer to a forward request, with the coefficients in force as its service begins; the range test on the
coordinates comes first (R114, R115, R120). -/
def forwardAnswer (s : State) (x y : Int) : FwdAnswer :=
  if acceptedCoordinates x y then
    match s.xform.inForce, s.plan with
    | some c, some p =>
      let t := forwardTarget c x y
      if withinTravel p t.1 t.2 then .reachable t.1 t.2 s.xform.seqNo else .unreachable s.xform.seqNo
    | _, _ => .noTransform
  else .unreachable s.xform.seqNo

/-- The saturation of an inverse result, and whether it saturated (R116). -/
def saturate (v : Int) : Int × Bool :=
  if 2147483647 < v then (2147483647, true) else if v < -2147483647 then (-2147483647, true) else (v, false)

/-- The inverse transform of a stage position (R116). -/
def inversePosition (c : Coeffs) (x y : Int) : (Int × Bool) × (Int × Bool) :=
  let ux := x - c.bx
  let uy := y - c.bY
  (saturate (roundDiv (c.c11 * ux + c.c12 * uy) (2 ^ 24)), saturate (roundDiv (c.c21 * ux + c.c22 * uy) (2 ^ 24)))

/-- The deviations of the product of a candidate's two matrices from the identity, each with the number of its element
(R110). -/
def deviations (c : Coeffs) : List (Nat × Nat) :=
  [(11, (c.a11 * c.c11 + c.a12 * c.c21 - 2 ^ 54).natAbs), (12, (c.a11 * c.c12 + c.a12 * c.c22).natAbs),
   (21, (c.a21 * c.c11 + c.a22 * c.c21).natAbs), (22, (c.a21 * c.c12 + c.a22 * c.c22 - 2 ^ 54).natAbs)]

/-- The worst deviation: the largest, the first of those that share it (R110). -/
def worstDeviation (c : Coeffs) : Nat × Nat :=
  (deviations c).foldl (fun w e => if w.2 < e.2 then e else w) (11, (c.a11 * c.c11 + c.a12 * c.c21 - 2 ^ 54).natAbs)

/-- The identity check passes (R110). -/
def checkPasses (c : Coeffs) : Bool := decide ((worstDeviation c).2 ≤ 2 ^ 38)

/-! ### The arithmetic engine -/

/-- The engine's arbiter: if the engine is free, the service of a waiting request begins, the sequencer place before the
commit place before the view place (R119). -/
def State.engineStart (s : State) : State :=
  if s.xform.service.isSome then s
  else match s.xform.seqPlace with
    | some (x, y) =>
      s.onXform fun t => { t with service := some (.forward (forwardAnswer s x y) false), seqPlace := none }
    | none =>
      if s.xform.commitPlace then s.onXform fun t => { t with service := some (.check false), commitPlace := false }
      else if s.xform.viewPlace then s.onXform fun t => { t with service := some .inverse, viewPlace := false }
      else s

/-- The arbiter's choice among the requests that arrive together, or as an operation ends: it is made when the other steps
of the event have been taken, so that the sequencer's next request, which a step of the event may make, is preferred to a
commit or a view that waits already (R119). -/
def State.engineChoiceStep (s : State) : State :=
  if s.made.flatten.any (· != .engineChoice) then s.goOn [.engineChoice] else s.engineStart

/-- A forward request is placed in the sequencer place (R114, R119). -/
def State.placeForward (x y : Int) (s : State) : State :=
  (s.onXform fun t => { t with seqPlace := some (x, y) }).emit .engineChoice

/-! ### Alignment commits -/

/-- Conditions 3 and 4 of an alignment commit (R109). -/
def alignConditions (s : State) : Bool :=
  s.stageWaferOnST
    && (s.stageProgress == .loaded || s.stageProgress == .aligned || s.stageProgress == .reviewing)
    && !(s.seq.st == .ordering || s.seq.st == .running || s.seq.st == .probing || s.seq.st == .halted)

/-- The result of the checks of an alignment commit (R109). -/
def alignCheck (s : State) : Code :=
  if s.xform.pendingCommit.isSome then .busy
  else if s.xform.loadPos != .at 10 then .incomplete
  else if !alignConditions s then .state
  else .ok

/-- The transform unit takes the alignment commit word (R109, R110). -/
def State.takeAlignment (d : Word) (s : State) : State :=
  let refuse (c : Code) : State :=
    ((s.onXform fun t => { t with commitResult := c }).name transformStatus).emit .finishHost
  if d ≠ 1 then refuse .unknown
  else if alignCheck s == .ok then
    State.emit .finishHost (State.emit .engineChoice (State.name transformStatus (s.onXform fun t =>
      { t with pendingCommit := some { wafer := s.hand.stage.getD 0, candidate := coefficients t.copies },
               commitResult := .noResult, commitPlace := true })))
  else refuse (alignCheck s)

/-- The result of a commit whose check has run to its end (R111). -/
def commitOutcome (s : State) (pc : PendingCommit) : Code :=
  if !checkPasses pc.candidate then .rejected
  else if alignConditions s && s.hand.stage == some pc.wafer then .ok
  else .state

/-- The settlement of the pending commit (R111, R112). -/
def State.settleCommit (pc : PendingCommit) (s : State) : State :=
  let worst := worstDeviation pc.candidate
  let result := commitOutcome s pc
  let s1 := State.name transformStatus (s.onXform fun t =>
    { t with pendingCommit := none, commitResult := result, devElement := worst.1, devMagnitude := worst.2 })
  if result == .ok then
    ((s1.onXform fun t => { t with inForce := some pc.candidate, seqNo := t.seqNo + 1 }).emit .discardShadow).emit .aligned
  else s1

/-- The end of the identity check: the commit is settled, and the engine is free (R111, R113, R119). -/
def State.checkEnded (s : State) : State :=
  match s.xform.service with
  | some (.check discard) =>
    let s1 := s.onXform fun t => { t with service := none }
    State.emit .engineChoice
      (if discard then s1
       else match s.xform.pendingCommit with
        | none => s1
        | some pc => s1.settleCommit pc)
  | _ => s

/-- The wafer told of the alignment: LOADED or ALIGNED becomes ALIGNED (R112). -/
def State.wafersAligned (s : State) : State :=
  match s.hand.stage with
  | none => s
  | some w =>
    let v := s.wafer w
    if v.progress == .loaded then (s.setWafer w { v with progress := .aligned }).name [waferStateWord w] else s

/-! ### Views -/

/-- The transform unit takes the view request word (R117). -/
def State.takeView (d : Word) (s : State) : State :=
  let refuse (c : Code) : State :=
    ((s.onXform fun t => { t with viewResult := c }).name transformStatus).emit .finishHost
  if d ≠ 1 then refuse .unknown
  else if s.xform.view.isSome then refuse .busy
  else match s.xform.inForce with
    | none => refuse .state
    | some c =>
      State.emit .finishHost (State.emit .engineChoice (State.name transformStatus (s.onXform fun t =>
        { t with
          view := some { xCount := s.motion.x.count, yCount := s.motion.y.count, coeffs := c, seqNo := t.seqNo },
          viewPlace := true, viewResult := .ok })))

/-- The results of a view (R118). -/
def viewResultOf (v : View) (number : BitVec 16) : ViewResult :=
  let r := inversePosition v.coeffs v.xCount.toInt v.yCount.toInt
  { waferX := ofSigned r.1.1, waferY := ofSigned r.2.1, xCount := v.xCount, yCount := v.yCount, number := number,
    seqNo := v.seqNo, satX := r.1.2, satY := r.2.2 }

/-- The posted-results step of a view (R15, R118). -/
def State.postView (s : State) : State :=
  match s.xform.view with
  | none => s
  | some v =>
    State.name viewResults (s.onXform fun t =>
      { t with results := viewResultOf v (t.results.number + 1), view := none })

/-- The inverse conversion ends: the results step is made, and the engine is free (R118, R119). -/
def State.inverseEnded (s : State) : State :=
  match s.xform.service with
  | some .inverse => ((s.onXform fun t => { t with service := none }).emit .viewPost).emit .engineChoice
  | _ => s

/-! ### Departure -/

/-- An operation in service whose result is to be discarded (R121). -/
def discardService : Option EngineOp → Option EngineOp
  | some (.forward a _) => some (.forward a true)
  | some (.check _) => some (.check true)
  | o => o

/-- The departure's clearing of the transform unit, made at once but for the load-cycle position, with its step (R80,
R113, R121, R122). -/
def State.departTransform (s : State) : State :=
  let s1 := s.onXform fun t =>
    { t with
      inForce := none,
      commitResult := if t.pendingCommit.isSome then .stale else t.commitResult,
      pendingCommit := none, seqPlace := none, commitPlace := false,
      service := discardService t.service }
  s1.emit (.departTransform (changesOf s s1 transformStatus))

/-- The departure's step of the transform unit: load-cycle position 0, after the judgements of the coefficient writes
before it and before those of the writes after it (R108, R122, log 12). -/
def State.departTransformStep (s : State) : State :=
  State.name transformStatus (s.onXform fun t => { t with loadPos := .at 0 })

end Sys2Proof.Machine
end

