-- ==== Sys2Proof/Machine/Focus.lean ====
section
/-! DEFINITION. The focus unit: the map, predictions, the interpolator, the focus attempt, learning, seeds, clears and
queries (chapter 7). -/

namespace Sys2Proof.Machine

/-- Change the focus unit's state. -/
def State.onFocus (f : Focus → Focus) (s : State) : State := { s with focus := f s.focus }

/-- Change the attempt in progress. -/
def State.onAttempt (f : Attempt → Attempt) (s : State) : State :=
  s.onFocus fun u => { u with attempt := u.attempt.map f }

/-! ### Cells and predictions -/

/-- The cell index and fraction along one axis (R125). -/
def cellAxis (origin : Int) (pitch : Nat) (v : Int) : Nat × Nat :=
  let d := v - origin
  if d < 0 then (0, 0)
  else
    let i := d.toNat / pitch
    let r := d.toNat - i * pitch
    if 16 ≤ i then (15, 256) else (i, 256 * r / pitch)

/-- The cell of a wafer position (R125). -/
def cellOf (p : Plan) (x y : Int) : Cell :=
  let cx := cellAxis p.x0 p.pitch x
  let cy := cellAxis p.y0 p.pitch y
  { i := cx.1, j := cy.1, fx := cx.2, fy := cy.2 }

/-- The index of the nearest node of a cell (R124, R126). -/
def nearestNode (c : Cell) : Nat :=
  17 * (if 128 ≤ c.fy then c.j + 1 else c.j) + (if 128 ≤ c.fx then c.i + 1 else c.i)

/-- The corners of a cell with their weights: node index and weight (R125, R127). -/
def corners (c : Cell) : List (Nat × Nat) :=
  let n := 17 * c.j + c.i
  [(n, (256 - c.fx) * (256 - c.fy)), (n + 1, c.fx * (256 - c.fy)), (n + 17, (256 - c.fx) * c.fy), (n + 18, c.fx * c.fy)]

/-- The sums S and W over the valid corners (R127). -/
def cornerSums (s : State) (c : Cell) : Int × Nat :=
  (corners c).foldl
    (fun acc e => if (s.node e.1).valid then (acc.1 + e.2 * (s.node e.1).height.toInt, acc.2 + e.2) else acc) (0, 0)

/-- The height and source before the clamp (R127). -/
def rawPrediction (base sum : Int) (weight : Nat) : Int × Source :=
  if weight = 65536 then (roundDiv sum 65536, .interpolated)
  else if 0 < weight then (roundDiv sum weight, .partly)
  else (base, .fallback)

/-- The prediction for a wafer position, from the nodes and the base height as they stand (R127). -/
def predict (s : State) (p : Plan) (x y : Int) : Prediction :=
  let c := cellOf p x y
  let sums := cornerSums s c
  let h := rawPrediction s.focus.base.toInt sums.1 sums.2
  let z := clampInt p.zMin p.zMax h.1
  { z0 := z, source := h.2, clamped := z != h.1, cell := c }

/-! ### The interpolator -/

/-- Whenever the interpolator is free and no step of a clearing is untaken, its arbiter begins the service of a waiting
request, the sequencer place first (R129). -/
def State.interpStart (s : State) : State :=
  let f := s.focus
  if f.service.isSome || f.clearing != 0 then s
  else match s.plan, f.seqPlace, f.attempt, f.queryPlace, f.query with
    | some p, true, some a, _, _ =>
      s.onFocus fun u => { u with service := some { forQuery := false, pred := predict s p a.x a.y }, seqPlace := false }
    | some p, _, _, true, some (x, y) =>
      s.onFocus fun u => { u with service := some { forQuery := true, pred := predict s p x y }, queryPlace := false }
    | _, _, _, _, _ => s

/-! ### The actuator link -/

/-- The six bytes of a SETZ frame (R130, R207). -/
def actuatorBytes (z : Int) : List Byte :=
  let body := 0x20 :: bigEndian (ofSigned z)
  body ++ [byteSum body]

/-- An actuator frame begins (R130). -/
def State.beginActuatorFrame (z : Int) (s : State) : State :=
  s.change [setpointWord, loopStatusWord] fun s => s.onFocus fun u =>
    { u with frame := some { bytes := actuatorBytes z, began := s.now }, setpoint := some (ofSigned z),
             waitingFrame := none }

/-- A change of loop state and its step; the loop does not wait for it (R133). -/
def State.changeLoop (f : State → State) (s : State) : State := s.change [loopStatusWord] f

/-! ### The focus attempt -/

/-- The wait for the actuator ends: HSAMPLE is pulsed and the sample timer starts (R133). -/
def State.actuatorSettled (s : State) : State :=
  s.changeLoop fun s => State.onAttempt (fun a => { a with loop := .awaitSample }) (s.onFocus fun u =>
    { u with settleTimer := none, hsample := some s.now, sampleTimer := some s.now })

/-- Sample `n` begins with the setpoint: a frame is sent, or waits for the one being shifted, or is omitted (R133). -/
def State.beginSample (n : Nat) (z : Int) (s : State) : State :=
  let there := s.focus.setpoint == some (ofSigned z)
  let s1 := s.changeLoop fun s =>
    State.onAttempt (fun a => { a with z := some z, sample := n, loop := .awaitSettle })
      (s.onFocus fun u => { u with settleTimer := if there then some s.now else none })
  if there then (if s.focus.fsettled then s1.actuatorSettled else s1)
  else if s.focus.frame.isSome then s1.onFocus fun u => { u with waitingFrame := some z }
  else s1.beginActuatorFrame z

/-- The attempt request of the sequencer (R132, R137). -/
def State.requestAttempt (kind : AttemptKind) (x y : Int) (s : State) : State :=
  if !permission s then s.emit (.focusRefused kind)
  else State.interpStart (s.changeLoop fun s => s.onFocus fun u =>
    { u with attempt := some { x := x, y := y, kind := kind }, seqPlace := true })

/-- An event ends the attempt: its timers stop and no later edge or expiry is judged (R134, R135). -/
def State.endAttempt (outcome : FocusOutcome) (detail : TimeoutDetail) (s : State) : State :=
  (State.onAttempt (fun a => { a with ending := true })
    (s.onFocus fun u => { u with settleTimer := none, sampleTimer := none })).emit (.focusEnd outcome detail)

/-- The step of a sample: the error by the gain, rounded half up (R135). -/
def sampleStep (gain : Nat) (e : BitVec 16) : Int := roundDiv (e.toInt * gain) 256

/-- The judgement of a sample (R135): an ending, or the next Z. -/
inductive SampleVerdict where
  | ends (outcome : FocusOutcome)
  | next (z : Int)
  deriving DecidableEq, Repr

/-- The cases of R135, in order. -/
def judgeSample (p : Plan) (z : Int) (sample : Nat) (e : BitVec 16) : SampleVerdict :=
  let d := sampleStep p.focusGain e
  if e = Config.noCapture then .ends .noCapture
  else if e.toInt.natAbs ≤ p.focusTolerance then .ends .accepted
  else if (z = p.zMax ∧ 0 < d) ∨ (z = p.zMin ∧ d < 0) then .ends .atLimit
  else if sample = p.focusSamples then .ends .notConverged
  else .next (clampInt p.zMin p.zMax (z + d))

/-- The completed height sample is judged (R135). -/
def State.sampleRead (e : BitVec 16) (s : State) : State :=
  match s.focus.attempt, s.plan with
  | some a, some p =>
    if a.loop == .reading && !a.ending then
      let s1 := s.onAttempt fun a => { a with err := e }
      match judgeSample p (a.z.getD 0) a.sample e with
      | .ends outcome => s1.endAttempt outcome .noDetail
      | .next z => s1.beginSample (a.sample + 1) z
    else s
  | _, _ => s

/-- Z0, the source and the CLAMPED flag that a result or a record carries where no prediction was made, that of an attempt
refused at its request or aborted in PREDICTING among them: free values, the model's choice (R136, R137, R138, log 14). -/
def openPrediction (n : Nat) : Prediction :=
  { z0 := Config.openZ0 n
    source := match (Config.openSource n).val with | 0 => .interpolated | 1 => .partly | _ => .fallback
    clamped := Config.openClamped n }

/-- A record is made of an attempt without a prediction: its free values are used (log 14). -/
def State.useOpen (pred : Option Prediction) (s : State) : State :=
  { s with openCount := if pred.isSome then s.openCount else s.openCount + 1 }

/-- The last attempt word of an attempt that ends (R128, R136, R138). -/
def lastAttemptOf (n : Nat) (a : Attempt) (outcome : FocusOutcome) (detail : TimeoutDetail) : LastAttempt :=
  let pr := a.pred.getD (openPrediction n)
  { outcome := outcome, detail := detail, source := pr.source, clamped := pr.clamped, samples := a.sample, err := a.err }

/-- The focus unit's step of an attempt's ending (R136). -/
def State.finishAttempt (a : Attempt) (outcome : FocusOutcome) (detail : TimeoutDetail) (s : State) : State :=
  let z := ofSigned (a.z.getD 0)
  State.name [baseHeightWord, lastZWord, lastAttemptWord, loopStatusWord] ((s.onFocus fun u =>
    { u with
      base := if outcome == .accepted then z else u.base
      lastZ := z
      last := lastAttemptOf s.openCount a outcome detail
      attempt := none }).useOpen a.pred)

/-- The step of an attempt refused at its request: no prediction was made for it (R137, log 14). -/
def State.refuseAttempt (s : State) : State :=
  let pr := openPrediction s.openCount
  State.name [lastZWord, lastAttemptWord, loopStatusWord] ((s.onFocus fun u =>
    { u with last := { outcome := .aborted, source := pr.source, clamped := pr.clamped } }).useOpen none)

/-- An attempt in progress is aborted: the timers stop, no further frame or pulse begins, its prediction is withdrawn or
will be discarded, and its step is made (R138). -/
def State.abortFocus (tell : Bool) (s : State) : State :=
  match s.focus.attempt with
  | none => s
  | some a =>
    if a.ending then s
    else State.emit (.focusAbort tell) (State.onAttempt (fun a => { a with ending := true }) (s.onFocus fun u =>
      { u with
        settleTimer := none, sampleTimer := none, waitingFrame := none, seqPlace := false,
        service := u.service.map fun v => if v.forQuery then v else { v with discard := true } }))

/-- The step of an abort; last Z is kept where the attempt has set no Z yet (R138, log 32). -/
def State.abortStep (a : Attempt) (s : State) : State :=
  State.name [lastZWord, lastAttemptWord, loopStatusWord] ((s.onFocus fun u =>
    { u with
      lastZ := (a.z.map ofSigned).getD u.lastZ
      last := lastAttemptOf s.openCount a .aborted .noDetail
      attempt := none }).useOpen a.pred)

/-- The end of an interpolator service: the prediction is handed to the attempt, or the query results are posted; the
next service begins (R129, R132, R142). -/
def State.predictionDone (s : State) : State :=
  match s.focus.service with
  | none => s
  | some v =>
    let s1 := s.onFocus fun u => { u with service := none }
    let s2 :=
      if v.forQuery then s1.emit (.queryPost v.pred)
      else if v.discard || s.focus.attempt.isNone then s1
      else (s1.onAttempt fun a => { a with pred := some v.pred }).beginSample 1 v.pred.z0
    s2.interpStart

/-- The end of an actuator frame: a waiting frame begins, or the settle timer of the attempt's wait starts (R130, R133).
FSETTLED has gone low for the frame (log 26). -/
def State.actuatorFrameEnd (s : State) : State :=
  let s1 := s.onFocus fun u => { u with frame := none, fsettled := false }
  match s.focus.waitingFrame with
  | some z => s1.beginActuatorFrame z
  | none =>
    match s.focus.attempt with
    | some a =>
      if a.loop == .awaitSettle && !a.ending && s.focus.settleTimer.isNone then
        s1.onFocus fun u => { u with settleTimer := some s.now }
      else s1
    | none => s1

/-- A rising edge of FSETTLED (R133). -/
def State.fsettledRise (s : State) : State :=
  let s1 := s.onFocus fun u => { u with fsettled := true }
  match s.focus.attempt with
  | some a =>
    if a.loop == .awaitSettle && !a.ending && s.focus.settleTimer.isSome then s1.actuatorSettled else s1
  | none => s1

/-- A rising edge of HREADY (R133). -/
def State.hreadyRise (s : State) : State :=
  match s.focus.attempt with
  | some a =>
    if a.loop == .awaitSample && !a.ending && s.focus.hsample.isNone then
      s.changeLoop fun s => State.onAttempt (fun a => { a with loop := .reading })
        (s.onFocus fun u => { u with sampleTimer := none })
    else s
  | none => s

/-! ### Learning, seeds and clears -/

/-- The node after a learn (R139). -/
def learnNode (n : Node) (z : Int) : Node :=
  if n.valid then
    let k : Int := min (n.count + 1) 8
    let d := z - n.height.toInt
    let step := (2 * d + k).fdiv (2 * k)
    { height := ofSigned (n.height.toInt + step), valid := true, count := min (n.count + 1) 255 }
  else { height := ofSigned z, valid := true, count := 1 }

/-- A learn request is taken; during a clearing it waits, one that waits as a departure's clearing begins too (R129, R139,
R143, log 40). -/
def State.learnStep (x y z : Int) (s : State) : State :=
  if s.focus.clearing != 0 then s.onFocus fun u => { u with learns := u.learns ++ [(x, y, z)] }
  else match s.plan with
    | none => s
    | some p =>
      let n := nearestNode (cellOf p x y)
      (s.setNode n (learnNode (s.node n) z)).name [nodeWord n 0, nodeWord n 1]

/-- An invalid node: its height is kept (R124). -/
def Node.invalidate (n : Node) : Node := { n with valid := false, count := 0 }

/-- Make nodes invalid. -/
def State.invalidateNodes (ns : List Nat) (s : State) : State :=
  ns.foldl (fun s n => s.setNode n (s.node n).invalidate) s

/-- The steps of a clearing that name nodes: a CLEAR_MAP's and a departure's (R141, R143). -/
def clearCount : Nat := 37

/-- A clearing of the map begins: its steps are untaken (R129). -/
def State.beginClearing (s : State) : State := s.onFocus fun u => { u with clearing := u.clearing + clearCount }

/-- A step of a clearing has been taken. Once no step of a clearing is untaken, what waited for it goes on: the interpolator
and the learns, which a departure in the meantime has not withdrawn (R129, R141, R143, log 40). -/
def State.endClearing (s : State) : State :=
  let s1 := s.onFocus fun u => { u with clearing := u.clearing - 1 }
  if s1.focus.clearing = 0 then
    State.interpStart ((s1.onFocus fun u => { u with learns := [] }).emitEach
      (s1.focus.learns.map fun l => .learn l.1 l.2.1 l.2.2))
  else s1

/-- The nodes that clearing step k names: eight in ascending index, and node 288 in the last (R141). -/
def clearedBy (k : Nat) : List Nat := if k < 36 then (List.range 8).map fun i => 8 * k + i else [288]

/-- A clearing step. A CLEAR_MAP goes on with its next step and ends with the result OK (R141); a departure's steps were all
made at the departure (R143). The clearing that holds the interpolator back is over with the last of the node steps, and a
departure's step of the base height is no part of it: the model's choice (log 36). -/
def State.clearStep (k : Nat) (host : Bool) (s : State) : State :=
  let s1 := (s.invalidateNodes (clearedBy k)).name ((clearedBy k).map fun n => nodeWord n 1)
  let s2 :=
    if !host then s1
    else if k < 36 then s1.goOn [.clearNodes (k + 1) true]
    else State.name [focusResultWord] (s1.onFocus fun u => { u with ctlResult := .ok })
  s2.endClearing

/-- The node that SEED or CLEAR_NODE names, or the refusal (R140). -/
def seedCheck (s : State) : Code :=
  if 288 < s.focus.seedIndex.toNat then .range
  else if s.hand.stage.isNone then .state
  else .ok

/-- The control result of the focus unit, in a step that names the focus result word (R140). -/
def State.focusResult (c : Code) (s : State) : State :=
  State.name [focusResultWord] (s.onFocus fun u => { u with ctlResult := c })

/-- The node that an accepted SEED sets (R140). -/
def seededNode (p : Plan) (v : Word) : Node :=
  { height := ofSigned (clampInt p.zMin p.zMax v.toInt), valid := true, count := 1 }

/-- The focus unit takes the focus control word (R140, R141). -/
def State.takeFocusControl (d : Word) (s : State) : State :=
  let n := s.focus.seedIndex.toNat
  match d.toNat, s.plan with
  | 1, some p =>
    if seedCheck s == .ok then
      (((s.setNode n (seededNode p s.focus.seedValue)).name [nodeWord n 0, nodeWord n 1]).focusResult .ok).emit
        .finishHost
    else (s.focusResult (seedCheck s)).emit .finishHost
  | 2, _ =>
    if seedCheck s == .ok then
      (((s.invalidateNodes [n]).name [nodeWord n 1]).focusResult .ok).emit .finishHost
    else (s.focusResult (seedCheck s)).emit .finishHost
  | 3, _ => s.beginClearing.emits [.clearNodes 0 true, .finishHost]
  | _, _ => (s.focusResult .unknown).emit .finishHost

/-! ### Queries -/

/-- The focus unit takes the query trigger word (R142). -/
def State.takeQuery (d : Word) (s : State) : State :=
  let result (c : Code) (s : State) : State :=
    State.name [focusResultWord] (s.onFocus fun u => { u with queryResult := c })
  if d ≠ 1 then (result .unknown s).emit .finishHost
  else if s.focus.query.isSome then (result .busy s).emit .finishHost
  else State.emit .finishHost (State.interpStart (result .ok (s.onFocus fun u =>
    { u with query := some (u.queryX.toInt, u.queryY.toInt), queryPlace := true })))

/-- The posted-results step of a query (R15, R142). -/
def State.postQuery (pr : Prediction) (s : State) : State :=
  if s.focus.query.isNone then s
  else State.name queryResults (s.onFocus fun u =>
    { u with queryZ := ofSigned pr.z0, queryPred := pr, querySeq := u.querySeq + 1, queryNearest := nearestNode pr.cell,
             query := none })

/-! ### Departure -/

/-- The nominal Z of the plan in force. -/
def nominalZ (s : State) : Word := ofSigned ((s.plan.map (·.nominalZ)).getD 0)

/-- The departure's clearing of the focus unit: the abort of an attempt, the steps of a CLEAR_MAP, and one step for the
base height, last Z, last attempt and loop status, which all begin to wait at the departure (R138, R143). -/
def State.departFocus (s : State) : State :=
  ((s.abortFocus false).beginClearing.emitEach ((List.range clearCount).map fun k => .clearNodes k false)).emit .departFocus

/-- The departure's last step of the focus unit (R143). -/
def State.departFocusStep (s : State) : State :=
  State.name [baseHeightWord, lastZWord, lastAttemptWord, loopStatusWord] (s.onFocus fun u =>
    { u with base := nominalZ s, lastZ := nominalZ s, last := {} })

end Sys2Proof.Machine
end

