-- ==== Sys2Proof/Machine/Sequencer.lean ====
section
/-! DEFINITION. The revisit sequencer: its states, controls, the phases of a revisit, aborts, probes and DONE
(chapter 9). -/

namespace Sys2Proof.Machine

/-- Change the sequencer's state. -/
def State.onSeq (f : Sequencer → Sequencer) (s : State) : State := { s with seq := f s.seq }

/-- The sequencer is PAUSED(RING). -/
def pausedRing (q : Sequencer) : Bool := q.st == .paused && q.reason == .ring

/-- The sequencer is in a phase in which a defect is ACTIVE (R171). -/
def activePhase (q : Sequencer) : Bool :=
  q.phase == .move || q.phase == .settle || q.phase == .focus || q.phase == .expose

/-- All five pending flags clear (R165). -/
def Sequencer.clearFlags (q : Sequencer) : Sequencer :=
  { q with fPause := false, fStop := false, fTrip := false, fHalt := false, fFault := false }

/-- A pending flag is set (R165). -/
def Sequencer.flagged (q : Sequencer) : Bool := q.fPause || q.fStop || q.fTrip || q.fHalt || q.fFault

/-- The purpose of an outstanding request whose answer will be discarded; a prefetch stays a prefetch (R168, R170). -/
def Purpose.discardUnlessPrefetch : Purpose → Purpose
  | .prefetch i => .prefetch i
  | _ => .discarded

/-- The revisit in progress and the selection are given up: no current defect, no target, no verdict timer. -/
def Sequencer.giveUp (q : Sequencer) : Sequencer :=
  { q with sel := none, current := none, target := none, verdictTimer := none, targetWait := false,
           selecting := false, outstanding := q.outstanding.map Purpose.discardUnlessPrefetch }

/-- The entry into HALTED, which is handed to the lot unit (R165, R177). -/
def State.enterHalted (s : State) : State :=
  (s.changeSeq fun q => { q.giveUp with st := .halted, phase := .noPhase, reason := .noReason }).countStage 15

/-- The entry into PAUSED with a reason other than RING. -/
def State.enterPaused (r : PauseReason) (s : State) : State :=
  s.changeSeq fun q => { q.giveUp with st := .paused, phase := .noPhase, reason := r }

/-! ### Staging and DONE -/

/-- The REVISIT record of a defect (R176, R198, section 12.7). -/
def revisitRecord (s : State) (d : Nat) : Record :=
  let r := s.defect d
  { kind := 1, qualifier := 0, wafer := s.hand.stage.getD 63, w1 := BitVec.ofNat 32 d,
    w2 := field 0 4 r.outcome.num + field 8 4 r.reviewClass.toNat + field 12 2 r.attempts + field 16 8 r.sizeBin,
    w3 := if r.st == .imaged then r.acceptedZ else r.tag }

/-- The WAFER_DONE record, with the per-state counts as they stand (R182, R198, section 12.7). -/
def waferDoneRecord (s : State) (cause : DoneCause) : Record :=
  { kind := 2, qualifier := cause.num, wafer := s.hand.stage.getD 63, w1 := halves (s.stateCount 3) (s.stateCount 4),
    w2 := halves (s.stateCount 7) (s.stateCount 5), w3 := halves (s.stateCount 6) (s.stateCount 1) }

/-- A record is staged in the sequencer staging slot (R176). -/
def State.stageSeq (r : Record) (s : State) : State := { s with report := { s.report with seqSlot := some r } }

/-- A staging wait begins: PAUSED(RING) with the phase kept, one stall counted (R176). -/
def State.beginStagingWait (w : StagingWait) (f : Sequencer → Sequencer) (s : State) : State :=
  ((s.changeSeq fun q => { f q with st := .paused, reason := .ring, staging := some w }).countStage 14).emit .stall

/-- The sequencer is in DONE: the WAFER_DONE report is staged, and the pending flags are cleared (R182). -/
def State.nowDone (cause : DoneCause) (s : State) : State :=
  (s.stageSeq (waferDoneRecord s cause)).changeSeq fun q =>
    { q.giveUp.clearFlags with st := .done, phase := .noPhase, reason := .noReason, staging := none }

/-- The entry into DONE, with a staging wait if the slot is full (R182). -/
def State.enterDone (cause : DoneCause) (s : State) : State :=
  if s.report.seqSlot.isNone then s.nowDone cause
  else s.beginStagingWait (.waferDone cause) Sequencer.giveUp

/-! ### Decision points, SELECT and TARGET -/

/-- A decision point: the first pending flag that applies decides, and the flags are cleared (R165). -/
def State.decision (go : State → State) (s : State) : State :=
  let q := s.seq
  let s1 := if q.flagged then s.changeSeq Sequencer.clearFlags else s
  if q.fHalt then s1.enterHalted
  else if q.fFault then s1.enterPaused .fault
  else if q.fStop then s1.enterDone .stop
  else if q.fTrip then s1.enterPaused .trip
  else if q.fPause then s1.enterPaused .host
  else go s

/-- A forward request for the selected defect or the probe, or a prefetch (R114, R170, R172, R181). -/
def State.forwardRequest (purpose : Purpose) (x y : Int) (s : State) : State :=
  (s.onSeq fun q => { q with outstanding := some purpose }).placeForward x y

/-- The cause of an UNREACHABLE retirement (R170). -/
def unreachableCause (x y : Int) : DefectOutcome := if acceptedCoordinates x y then .travel else .coordinate

/-- A target has been taken: TARGET ends with the activation, whose step begins with TARGET's decision point (R165, R166,
R170, R171). -/
def State.takeTarget (d : Nat) (x y : Int) (s : State) : State :=
  (s.onSeq fun q => { q with target := some (x, y) }).emit (.activate d x y)

/-- The sequencer has selected a defect and asked for its target, and nothing has answered yet (R170). -/
def asksTarget (q : Sequencer) (d : Nat) : Bool :=
  q.st == .running && q.phase == .target && q.sel == some d && q.target.isNone && q.outstanding.isNone && !q.targetWait

/-- The shadow target is asked for, and becomes empty at the answer (R96, R170). -/
def State.askShadowStep (d : Nat) (s : State) : State :=
  if asksTarget s.seq d then
    let s1 := s.discardShadow
    match shadowMatch s d with
    | some r =>
      match r.target with
      | some (x, y) => s1.takeTarget d x y
      | none => s1.emit (.retire d (unreachableCause s.seq.cx s.seq.cy))
    | none => s1.forwardRequest .target s.seq.cx s.seq.cy
  else s

/-- TARGET begins for a defect (R169, R170). -/
def State.beginTarget (d : Nat) (s : State) : State :=
  let r := s.defect d
  let s1 := s.changeSeq fun q =>
    { q with phase := .target, sel := some d, cx := r.xy.1, cy := r.xy.2, cPrior := r.priorClass, cTag := r.tag,
             outstanding := q.outstanding.map Purpose.discardUnlessPrefetch,
             targetWait := q.outstanding.isSome }
  if s.seq.outstanding.isSome then s1 else s1.emit (.askShadow d)

/-- SELECT reads the head of the queue (R169). -/
def State.selectHead (s : State) : State :=
  match s.defects.queue.head? with
  | none => s.enterDone .empty
  | some d => if quotaReached s (s.defect d).priorClass then s.emit (.retire d .quota) else s.beginTarget d

/-- The sequencer goes to SELECT, whose decision is still to come (R169, R176). -/
def State.enterSelect (s : State) : State :=
  s.changeSeq fun q =>
    { q with st := .running, phase := .select, reason := .noReason, sel := none, current := none, target := none,
             selecting := false }

/-- SELECT begins, with its decision point (R165, R169, R176). -/
def State.beginSelect (s : State) : State := State.decision State.selectHead s.enterSelect

/-- A REVISIT report is staged and SELECT begins, or the staging wait begins (R176). -/
def State.stageRevisit (r : Record) (s : State) : State :=
  if s.report.seqSlot.isNone then (s.stageSeq r).beginSelect else s.beginStagingWait (.revisit r) id

/-- A retirement has been made: its report is staged where it has one, or the staging wait begins, and SELECT is decided
behind the retirement's hand-over to the lot unit (R165, R170, R176, R183, log 33). -/
def State.retired (cause : DefectOutcome) (report : Option Record) (s : State) : State :=
  let count := countOp s (retireAttr cause) s.hand.stage
  let select (s : State) : State := (s.enterSelect.onSeq fun q => { q with selecting := true }).emits [count, .select]
  match report with
  | none => select s
  | some r => if s.report.seqSlot.isNone then select (s.stageSeq r) else (s.emit count).beginStagingWait (.revisit r) id

/-- The SELECT that follows a retirement is decided (R165, R169). -/
def State.selectStep (s : State) : State := if s.seq.selecting then s.beginSelect else s

/-- The sequencer staging slot has been emptied: the staging wait ends (R176, R199). -/
def State.endStagingWait (s : State) : State :=
  if s.report.seqSlot.isSome then s
  else match s.seq.staging with
    | none => s
    | some (.waferDone cause) => s.nowDone cause
    | some (.revisit r) =>
      ((s.stageSeq r).onSeq fun q => { q with staging := none }).beginSelect

/-- In TARGET, the answer for the selected defect has come (R170). -/
def targetAnswered (q : Sequencer) (d : Nat) : Bool :=
  q.phase == .target && q.sel == some d && q.outstanding != some .target && !q.targetWait

/-- The RETIRE request and what follows its answer (R153, R169, R170). -/
def State.retireStep (d : Nat) (cause : DefectOutcome) (s : State) : State :=
  let q := s.seq
  if q.st == .running && ((cause == .quota && q.phase == .select) || targetAnswered q d) then
    if pendingAtHead s d then
      let s1 := s.retireDefect d cause
      s1.retired cause (if cause == .quota then none else some (revisitRecord s1 d))
    else s.beginSelect
  else s

/-! ### Aborts -/

/-- RETURN of the current defect, where it is ACTIVE (R154, R168). -/
def State.returnCurrent (s : State) : State :=
  match s.seq.current with
  | none => s
  | some d => if isActive s d then s.returnRecord d else s

/-- The state that an abort enters (R177, R179). -/
def State.enterAborted (fault : Bool) (s : State) : State := if fault then s.enterPaused .fault else s.enterHalted

/-- The flag that an abort sets in RESOLVE or in a staging wait (R177, R179). -/
def State.flagAborted (fault : Bool) (s : State) : State :=
  s.changeSeq fun q => if fault then { q with fFault := true } else { q with fHalt := true }

/-- An abort of the revisit in progress, by phase (R177, R179). -/
def State.abortNow (fault : Bool) (s : State) : State :=
  let q := s.seq
  if q.st == .running then
    if activePhase q then (s.abortFocus false).returnCurrent.enterAborted fault
    else if q.phase == .resolve then s.flagAborted fault
    else s.enterAborted fault
  else if pausedRing q then s.flagAborted fault
  else s

/-! ### Moves -/

/-- A probe outcome for an UNREACHABLE answer or a move refused with RANGE (R181). -/
def probeUnreachable (x y : Int) : ProbeOutcome := if acceptedCoordinates x y then .travel else .coordinate

/-- A revisit's move refused with RANGE: the RETURN, while the defect is still in MOVE with no target and no move in
progress (R171). -/
def State.rangeReturnStep (d : Nat) (s : State) : State :=
  if s.seq.st == .running && s.seq.phase == .move && s.seq.current == some d && s.seq.target.isNone && isActive s d
      && !moving s.motion then
    s.returnRecord d
  else s

/-- A revisit's move refused with RANGE: the RETIRE with cause TRAVEL, and the REVISIT report (R171). -/
def State.rangeRetireStep (d : Nat) (s : State) : State :=
  if s.seq.st == .running && s.seq.phase == .move && s.seq.current == some d && pendingAtHead s d then
    let s1 := s.retireDefect d .travel
    s1.retired .travel (some (revisitRecord s1 d))
  else s

/-- The activation of the selected defect, after TARGET's decision point (R165, R171). -/
def State.activation (d : Nat) (x y : Int) (s : State) : State :=
  if quotaReached s (s.defect d).priorClass then
    if pendingAtHead s d then (s.retireDefect d .quota).retired .quota none else s.beginSelect
  else if pendingAtHead s d then
    let s1 := (s.activateDefect d).changeSeq fun q => { q with phase := .move, current := some d, sel := none }
    match moveCheck s1 x y with
    | .accepted => s1.emit (.move (.start x y))
    | .noPermission => s1.emit (.seqAbort false)
    | .outOfTravel => (s1.onSeq fun q => { q with target := none }).emits [.rangeReturn d, .rangeRetire d]
  else s.beginSelect

/-- The end of TARGET: the decision point, and the activation of the selected defect (R165, R171). -/
def State.activateStep (d : Nat) (x y : Int) (s : State) : State :=
  let q := s.seq
  if q.st == .running && targetAnswered q d then State.decision (State.activation d x y) s else s

/-! ### Probes -/

/-- What a focus attempt's prediction and samples give to its result and to a probe's result words; where no attempt was
made, or none with a prediction, there is no cell, and Z0, the source and the samples used are free values (R132, R136,
R137, R181, log 14). -/
def attemptFigures (n : Nat) (a : Option Attempt) : FocusResult :=
  let pr := (a.bind (·.pred)).getD (openPrediction n)
  { z0 := pr.z0, source := pr.source, clamped := pr.clamped, cell := (a.bind (·.pred)).map (·.cell)
    samples := match a with | some a => a.sample | none => (Config.openSamples n).val }

/-- The end of a probe: its result words in one step, and the return to the prior state, whose step goes with it; an
accepted probe asks for a learn (R161, R181). -/
def State.probeEndNow (outcome : ProbeOutcome) (figures : FocusResult) (s : State) : State :=
  if s.seq.st != .probing then s
  else
    let prior := s.seq.prior.getD (.idle, .noReason)
    let s1 := s.onSeq fun q =>
      { q.giveUp with
        st := prior.1, phase := .noPhase, reason := prior.2, prior := none, probeOutcome := outcome,
        probeResult := figures, probeCount := q.probeCount + 1 }
    let s2 := (s1.name probeResults).goOn [.publish (changesOf s s1 dispatchWords)]
    if outcome == .accepted then s2.emit (.learn s.seq.px s.seq.py figures.acceptedZ) else s2

/-- The end of a probe for a cause outside the focus unit, with the attempt made for it as it stood at the event
(R181). -/
def State.probeEndStep (outcome : ProbeOutcome) (a : Option Attempt) (s : State) : State :=
  if s.seq.st == .probing then
    State.abortFocus false ((s.probeEndNow outcome (attemptFigures s.openCount a)).useOpen (a.bind (·.pred)))
  else s

/-- An event has ended the probe, and its step is still untaken (R181). -/
def probeEnding (s : State) : Bool :=
  (untaken s).any fun op => match op with | .probeEnd _ _ => true | _ => false

/-- The probe ends for a cause outside the focus unit, unless an earlier event has ended it: it makes no further request,
move or attempt, and its step is followed by the steps `after` (R181). -/
def State.endProbeThen (outcome : ProbeOutcome) (after : Task) (s : State) : State :=
  if probeEnding s then s.emits after
  else
    (s.onSeq fun q =>
      { q with target := none, targetWait := false,
               outstanding := q.outstanding.map Purpose.discardUnlessPrefetch }).emits
      (.probeEnd outcome s.focus.attempt :: after)

/-- The probe ends for a cause outside the focus unit (R181). -/
def State.endProbe (outcome : ProbeOutcome) (s : State) : State := s.endProbeThen outcome []

/-- The move of a probe (R181). -/
def State.probeMove (x y : Int) (s : State) : State :=
  match moveCheck s x y with
  | .accepted =>
    (s.changeSeq fun q => { q with phase := .move, target := some (x, y) }).emit (.move (.start x y))
  | .noPermission => s.endProbe .interlock
  | .outOfTravel => s.endProbe (probeUnreachable s.seq.px s.seq.py)

/-! ### Forward answers -/

/-- TARGET goes on once an earlier answer has come back (R170, R181). -/
def State.resumeTarget (s : State) : State :=
  if !s.seq.targetWait then s
  else
    let s1 := s.onSeq fun q => { q with targetWait := false }
    match s.seq.st, s.seq.phase, s.seq.sel with
    | .running, .target, some d => s1.emit (.askShadow d)
    | .probing, .target, _ => s1.forwardRequest .probe s.seq.px s.seq.py
    | _, _, _ => s1

/-- The fill of the shadow target by a prefetch answer; NO_TRANSFORM fills nothing (R95, R172). -/
def State.fillFrom (i : Nat) (a : FwdAnswer) (s : State) : State :=
  match a with
  | .reachable x y n => s.emit (.fillShadow { index := i, target := some (x, y), seqNo := n })
  | .unreachable n => s.emit (.fillShadow { index := i, target := none, seqNo := n })
  | .noTransform => s

/-- A forward answer is handed to the sequencer (R114, R170, R172, R181). -/
def State.forwardAnswered (a : FwdAnswer) (s : State) : State :=
  let q := s.seq
  let s1 := s.onSeq fun q => { q with outstanding := none }
  match q.outstanding with
  | none => s1
  | some .discarded => s1.resumeTarget
  | some (.prefetch i) => (s1.fillFrom i a).resumeTarget
  | some .target =>
    match q.sel, a with
    | some d, .reachable x y _ => s1.takeTarget d x y
    | some d, .unreachable _ => s1.emit (.retire d (unreachableCause q.cx q.cy))
    | some _, .noTransform => s1.enterPaused .fault
    | none, _ => s1
  | some .probe =>
    if q.st != .probing then s1
    else match a with
      | .reachable x y _ => s1.probeMove x y
      | .unreachable _ => s1.endProbe (probeUnreachable q.px q.py)
      | .noTransform => s1.endProbe .noTransform

/-- The end of a forward transform: the answer is handed over unless it is discarded, and the engine's next service is
chosen, the request that the sequencer makes by the answer among those that wait (R114, R119, R121). -/
def State.forwardEnded (s : State) : State :=
  match s.xform.service with
  | some (.forward a discard) =>
    let s1 := s.onXform fun t => { t with service := none }
    (if discard then s1 else s1.forwardAnswered a).emit .engineChoice
  | _ => s

/-! ### FOCUS and EXPOSE -/

/-- The prefetch made as FOCUS begins (R172). -/
def State.prefetch (s : State) : State :=
  match s.defects.queue.head?, s.seq.outstanding with
  | some h, none => s.forwardRequest (.prefetch h) (s.defect h).xy.1 (s.defect h).xy.2
  | _, _ => s

/-- The notice that the move has SETTLED: FOCUS begins, where the move is the one that the sequencer has in MOVE or
SETTLE (R91, R171, R172, R181). -/
def State.settledNotice (s : State) : State :=
  let q := s.seq
  if s.motion.active == q.target && (q.phase == .move || q.phase == .settle) then
    let s1 := s.changeSeq fun q => { q with phase := .focus }
    match q.st with
    | .running => (s1.requestAttempt .revisit q.cx q.cy).prefetch
    | .probing => s1.requestAttempt .probe q.px q.py
    | _ => s
  else s

/-- The step in which arrival begins to hold; with a settle time of 0 the move is SETTLED in it (R91). -/
def State.arriveStep (s : State) : State :=
  if s.motion.move == .moving then (if settleTime s = 0 then s.settleMove.settledNotice else s.beginSettling) else s

/-- The step of the settle timer's expiry, where the timer still runs (R91). -/
def State.settledStep (since : Nat) (s : State) : State :=
  if s.motion.move == .settling && s.motion.settleTimer == some since then s.settleMove.settledNotice else s

/-- The notice that the move has timed out (R92, R171, R181). -/
def State.timedOutNotice (s : State) : State :=
  if s.seq.phase == .move || s.seq.phase == .settle then
    match s.seq.st with
    | .running => s.emit (.failAttempt .moveTimeout)
    | .probing => s.endProbe .moveTimeout
    | _ => s
  else s

/-- The step of the move timer's expiry, where the timer still runs: the move ends with a STOP frame, and the sequencer
is told (R92). -/
def State.timedOutStep (since : Nat) (s : State) : State :=
  if moving s.motion && s.motion.moveTimer == some since then
    ((s.onMotion fun m => (m.endMove .timedOut .noCause).requestStop s.now).name stageStatus).timedOutNotice
  else s

/-- The steps of the move record (R88, R90 to R93). -/
def State.moveStep (c : MoveStep) (s : State) : State :=
  match c with
  | .start x y => s.startStep x y
  | .arrive => s.arriveStep
  | .leave => s.leaveStep
  | .settled since => s.settledStep since
  | .timedOut since => s.timedOutStep since
  | .faulted => s.faultedStep
  | .stop => s.stopStep
  | .frame => s.heldFrameStep

/-- The image trigger request (R101, R173); a request made while a pulse is in progress waits for its end (log 10). -/
def State.requestTrigger (s : State) : State :=
  if !permission s then (s.onMotion fun m => { m with trigWait := false }).emit (.seqAbort false)
  else if s.motion.trigPulse.isSome then s.onMotion fun m => { m with trigWait := true }
  else s.emit (.trigger s.seq.current)

/-- The step of the image trigger, while the sequencer still awaits it in FOCUS and the permission holds: EXPOSE begins
(R89, R101, R173, log 3). -/
def State.triggerStep (current : Option Nat) (s : State) : State :=
  if s.seq.st == .running && s.seq.phase == .focus && s.seq.current == current && s.focus.attempt.isNone then
    if permission s then s.grantTrigger.changeSeq fun q => { q with phase := .expose, verdictTimer := some s.now }
    else s.emit (.seqAbort false)
  else s

/-! ### RESOLVE -/

/-- RESOLVE begins with the defect list unit's request, and makes its steps one after another, behind the hand-over to
the lot unit that the request makes (R146, R176, R195). -/
def State.enterResolve (request : State → State) (attr : Nat) (ops : Task) (s : State) : State :=
  (s.change dispatchWords fun s => (request s).onSeq fun q =>
    { q with phase := .resolve, verdictTimer := none }).emits (countOp s attr s.hand.stage :: ops)

/-- A failed attempt: FAIL_ATTEMPT, and RESOLVE by its answer (R175, R176). -/
def State.failNow (outcome : DefectOutcome) (s : State) : State :=
  match s.seq.current with
  | none => s
  | some d =>
    if s.seq.st == .running && activePhase s.seq && isActive s d then
      let s1 := s.abortFocus false
      if retried s d then s1.enterResolve (State.failRecord d outcome) 6 [.resolveEnd false]
      else s1.enterResolve (State.failRecord d outcome) 5 [.visited, .resolveEnd true]
    else s

/-- A failed attempt found at an event whose phase must still stand (R92, R173, R178). -/
def State.failStep (outcome : DefectOutcome) (s : State) : State :=
  let ph := s.seq.phase
  if outcome == .moveTimeout && !(ph == .move || ph == .settle) then s
  else if outcome == .verdictTimeout && ph != .expose then s
  else s.failNow outcome

/-- The end of RESOLVE: the report of a resolution, and SELECT (R176). -/
def State.resolveEndStep (report : Bool) (s : State) : State :=
  if s.seq.st == .running && s.seq.phase == .resolve then
    match report, s.seq.current with
    | true, some d => s.stageRevisit (revisitRecord s d)
    | _, _ => s.beginSelect
  else s

/-- The visited count increases by one, in a step naming the wafer's state word (R176). -/
def State.visitedStep (s : State) : State :=
  match s.hand.stage with
  | none => s
  | some w =>
    let v := s.wafer w
    (s.setWafer w { v with visited := v.visited + 1 }).name [waferStateWord w]

/-- A stage wafer whose progress is ALIGNED becomes REVIEWING, in a step naming its state word (R164). -/
def State.reviewingStep (s : State) : State :=
  match s.hand.stage with
  | none => s
  | some w =>
    let v := s.wafer w
    if v.progress == .aligned then (s.setWafer w { v with progress := .reviewing }).name [waferStateWord w] else s

/-! ### Focus results -/

/-- The defect outcome of a focus failure (R172). -/
def FocusOutcome.defect : FocusOutcome → DefectOutcome
  | .noCapture => .noCapture
  | .notConverged => .notConverged
  | .atLimit => .atLimit
  | .focusTimeout => .focusTimeout
  | _ => .noOutcome

/-- The probe outcome of a focus result (R181). -/
def FocusOutcome.probe : FocusOutcome → ProbeOutcome
  | .accepted => .accepted
  | .noCapture => .noCapture
  | .notConverged => .notConverged
  | .atLimit => .atLimit
  | .focusTimeout => .focusTimeout
  | _ => .interlock

/-- FOCUS_FALLBACKS is handed over for a source other than INTERPOLATED (R172). -/
def State.countFallback (source : Source) (s : State) : State :=
  match source with
  | .interpolated => s
  | _ => s.countStage 10

/-- The sequencer, in its FOCUS phase, takes the result of an attempt of its kind, in a step of its own (R136, R172, R173,
R175, R181, log 29). -/
def State.focusResultStep (kind : AttemptKind) (outcome : FocusOutcome) (figures : FocusResult) (s : State) : State :=
  if s.focus.attempt.isSome then s else
  match s.seq.st, s.seq.phase, kind with
  | .running, .focus, .revisit =>
    if outcome == .aborted then s.abortNow false
    else
      let s1 := s.countFallback figures.source
      if outcome == .accepted then (s1.onSeq fun q => { q with focus := figures }).requestTrigger
      else s1.failNow outcome.defect
  | .probing, .focus, .probe => s.probeEndNow outcome.probe figures
  | _, _, _ => s

/-- The result of an attempt is handed to the sequencer, with the outcome and the detail, the accepted Z, Z0, the source,
the cell and the samples used (R132, R136, R138). -/
def State.focusResulted (a : Attempt) (outcome : FocusOutcome) (detail : TimeoutDetail) (s : State) : State :=
  s.emit (.focusResult a.kind outcome
    { attemptFigures s.openCount (some a) with
      detail := detail, acceptedZ := if outcome == .accepted then a.z.getD 0 else 0 })

/-- The ending of an attempt: the focus unit's step, after which the result is handed over (R136, log 29). -/
def State.focusEndStep (outcome : FocusOutcome) (detail : TimeoutDetail) (s : State) : State :=
  match s.focus.attempt with
  | some a => if a.ending then (s.focusResulted a outcome detail).finishAttempt a outcome detail else s
  | none => s

/-- The step of an abort (R138). -/
def State.focusAbortStep (tell : Bool) (s : State) : State :=
  match s.focus.attempt with
  | some a => if a.ending then (if tell then s.focusResulted a .aborted .noDetail else s).abortStep a else s
  | none => s

/-- The step of an attempt refused at its request (R137). -/
def State.focusRefusedStep (kind : AttemptKind) (s : State) : State :=
  (s.emit (.focusResult kind .aborted { attemptFigures s.openCount none with samples := 0 })).refuseAttempt

/-! ### Notices -/

/-- The interlock assertion, or the loss of motion enable, or a stage presence fault reaches the sequencer (R177, R179,
R181). In SELECT and TARGET it enters its new state at once, and so before the counts of the same event; in MOVE to EXPOSE
its step follows them: the model's choice (log 37). -/
def State.abortNotice (fault : Bool) (s : State) : State :=
  let q := s.seq
  if q.st == .probing then s.endProbe (if fault then .presence else .interlock)
  else if q.st == .running && activePhase q then
    (s.onSeq fun q => { q with verdictTimer := none }).emit (.seqAbort fault)
  else s.abortNow fault

/-- A stage presence fault: with the stop request and, in FOCUS, the abort request (R179, R181). -/
def State.presenceNotice (s : State) : State :=
  let q := s.seq
  if q.st == .running || pausedRing q || q.st == .probing then
    let s1 := s.stopRequest.abortNotice true
    if q.phase == .focus then s1.abortFocus false else s1
  else s

/-- The start of the move in hand is untaken (R90). -/
def startUntaken (s : State) : Bool :=
  (untaken s).any fun op => match op with | .move (.start _ _) => true | _ => false

/-- The encoder fault notice, which concerns a revisit or probe past the start of its move (R83, R178, R181). -/
def State.encoderNotice (s : State) : State :=
  let q := s.seq
  if startUntaken s then s
  else if q.st == .running && activePhase q then
    State.emit (.failAttempt .positionSuspect)
      (State.abortFocus false (s.onSeq fun q => { q with verdictTimer := none }))
  else if q.st == .probing && activePhase q then (s.endProbe .positionSuspect).abortFocus false
  else s

/-! ### Controls -/

/-- A refused control: one step naming the sequencer result word (R163). -/
def State.refuseControl (c : Code) (s : State) : State :=
  ((s.onSeq fun q => { q with result := c }).name [seqResultWord]).emit .finishHost

/-- The last step of an accepted control (R163). -/
def State.acceptControl (s : State) : State := s.emits [.controlResult, .finishHost]

/-- The result OK of an accepted control (R163). -/
def State.controlResultStep (s : State) : State :=
  (s.onSeq fun q => { q with result := .ok }).name [seqResultWord]

/-- PAUSED with reason HOST, TRIP or FAULT. -/
def pausedPlain (q : Sequencer) : Bool := q.st == .paused && q.reason != .ring

/-- The wafer on ST is the stage wafer and is ALIGNED or REVIEWING (R164, R180). -/
def reviewable (s : State) : Bool :=
  s.stageWaferOnST && (s.stageProgress == .aligned || s.stageProgress == .reviewing)

/-- The START checks (R164). -/
def startCheck (s : State) : Code :=
  if !(s.seq.st == .ready || (s.seq.st == .done && s.pendingCount != 0)) then .state
  else if !reviewable s then .state
  else if !permission s then .interlock
  else .ok

/-- START (R164). -/
def State.start (s : State) : State :=
  let s1 := s.changeSeq fun q => { q.clearFlags with st := .running, phase := .select, reason := .noReason }
  State.beginSelect ((s1.emit .reviewing).acceptControl)

/-- PAUSE and STOP set their flags in RUNNING and PAUSED(RING) (R166). -/
def State.setFlag (f : Sequencer → Sequencer) (s : State) : State := (s.changeSeq f).acceptControl

/-- The RESUME checks (R167). -/
def resumeCheck (s : State) : Code :=
  if !(pausedPlain s.seq || s.seq.st == .halted) then .state
  else if s.seq.st == .paused && s.seq.reason == .fault && s.hand.held then .state
  else if !s.stageWaferOnST then .state
  else if !permission s then .interlock
  else .ok

/-- RESUME (R167). -/
def State.resume (s : State) : State :=
  State.beginSelect (s.changeSeq fun q =>
    { q with st := .running, phase := .select, reason := .noReason }).acceptControl

/-- ABANDON in RUNNING outside RESOLVE (R168). -/
def State.abandonRevisit (s : State) : State :=
  let s1 := if s.seq.phase == .focus then s.abortFocus false else s
  let s2 := if activePhase s.seq then s1.stopRequest.returnCurrent else s1.stopRequest
  (s2.enterDone .abandon).acceptControl

/-- ABANDON in PROBING: it ends the probe (R181). -/
def State.abandonProbe (s : State) : State :=
  let s1 := s.stopRequest
  let s2 := if s.seq.phase == .focus then s1.abortFocus false else s1
  s2.endProbeThen .abandoned [.controlResult, .finishHost]

/-- ABANDON, by state (R163, R168). -/
def State.abandon (s : State) : State :=
  let q := s.seq
  if q.st == .running then
    if q.phase == .resolve then s.setFlag fun q => { q with fStop := true } else s.abandonRevisit
  else if pausedRing q then s.setFlag fun q => { q with fStop := true }
  else if pausedPlain q || q.st == .halted then (s.stopRequest.enterDone .abandon).acceptControl
  else if q.st == .probing then s.abandonProbe
  else s.refuseControl .state

/-- The PROBE checks (R180). -/
def probeCheck (s : State) : Code :=
  let q := s.seq
  if !(q.st == .idle || q.st == .ready || pausedPlain q || q.st == .done) then .state
  else if !reviewable s then .state
  else if !permission s then .interlock
  else .ok

/-- PROBE (R180): no attempt has been made for it yet (log 14), and its TARGET makes its forward request after any
outstanding answer has come back (R181). -/
def State.probe (s : State) : State :=
  let wait := s.seq.outstanding.isSome
  let s1 := s.changeSeq fun q =>
    { q with
      st := .probing, phase := .target, reason := .noReason, prior := some (q.st, q.reason),
      px := q.probeX.toInt, py := q.probeY.toInt, probeOutcome := .inProgress,
      probeResult := attemptFigures s.openCount none,
      outstanding := q.outstanding.map Purpose.discardUnlessPrefetch, targetWait := wait }
  let s2 := ((s1.name probeResults).useOpen none).acceptControl
  if wait then s2 else s2.forwardRequest .probe s2.seq.px s2.seq.py

/-- STOP (R163, R166). -/
def State.stop (s : State) : State :=
  let q := s.seq
  if q.st == .running || pausedRing q then s.setFlag fun q => { q with fStop := true }
  else if pausedPlain q || q.st == .halted then (s.enterDone .stop).acceptControl
  else s.refuseControl .state

/-- PAUSE (R163, R166). -/
def State.pause (s : State) : State :=
  if s.seq.st == .running || pausedRing s.seq then s.setFlag fun q => { q with fPause := true }
  else s.refuseControl .state

/-- The sequencer takes its control word (R163). -/
def State.takeSeqControl (d : Word) (s : State) : State :=
  match d.toNat with
  | 1 => if startCheck s == .ok then s.start else s.refuseControl (startCheck s)
  | 2 => s.pause
  | 3 => if resumeCheck s == .ok then s.resume else s.refuseControl (resumeCheck s)
  | 4 => s.stop
  | 5 => s.abandon
  | 6 => if probeCheck s == .ok then s.probe else s.refuseControl (probeCheck s)
  | _ => s.refuseControl .unknown

/-! ### Verdicts -/

/-- An accepted verdict's request to the defect list unit is untaken (R174). -/
def verdictUntaken (s : State) : Bool :=
  (untaken s).any fun op => match op with | .verdict _ _ _ => true | _ => false

/-- The result of the checks of a verdict; one that follows an accepted verdict meets a revisit that has left EXPOSE, even
where the step of its leaving is untaken (R174, the model's choice, log 39). -/
def verdictCheck (s : State) (code index : Nat) : Code :=
  if code = 0 then .unknown
  else if s.seq.current ≠ some index then .stale
  else if s.seq.phase != .expose || verdictUntaken s then .state
  else .ok

/-- The operations of RESOLVE for an IMAGED defect: learning and figures, the visited count, the report (R176). -/
def imagedOps (s : State) (cls : BitVec 4) : Task :=
  let q := s.seq
  [.learn q.cx q.cy q.focus.acceptedZ] ++ figureOps s (q.focus.acceptedZ - q.focus.z0) cls.toNat
    ++ [.visited, .resolveEnd true]

/-- The sequencer takes the verdict word: a step names the verdict result, with which the word is finished; an accepted
verdict stops the verdict timer and makes its request to the defect list unit (R11, R174). -/
def State.takeVerdict (w : Word) (s : State) : State :=
  let code := getField w 0 2
  let index := getField w 16 12
  let result := verdictCheck s code index
  let s1 := (State.name [verdictResultWord] (s.onSeq fun q =>
    { q with vResult := result, vCode := BitVec.ofNat 2 code, vIndex := BitVec.ofNat 12 index,
             verdictTimer := if result == .ok then none else q.verdictTimer })).emit .finishHost
  if result == .ok then s1.emit (.verdict code index (BitVec.ofNat 4 (getField w 4 4))) else s1

/-- The defect list unit's step of an accepted verdict, after which the revisit is in RESOLVE (R154, R174, R175). -/
def State.verdictStep (code d : Nat) (cls : BitVec 4) (s : State) : State :=
  if s.seq.st == .running && s.seq.phase == .expose && s.seq.current == some d && isActive s d then
    match code with
    | 1 => s.enterResolve (State.imageRecord d cls s.seq.focus.acceptedZ) 1 (imagedOps s cls)
    | 2 => s.failNow .reimage
    | _ => s.enterResolve (State.rejectRecord d) 7 [.visited, .resolveEnd true]
  else s

/-! ### Departure -/

/-- The departure's clearing of the sequencer, made at once, with its step; `s0` is the state at the notice, whose words
show the current defect's attempts too (R162, R184). -/
def State.departSequencer (s0 s : State) : State :=
  let s1 := s.onSeq fun q => { probeX := q.probeX, probeY := q.probeY }
  s1.emit (.publish (changesOf s0 s1 (dispatchWords ++ [seqResultWord, verdictResultWord] ++ probeResults)))

end Sys2Proof.Machine
end

