-- ==== Sys2Proof/Machine/Handling.lean ====
section
/-! DEFINITION. The handling unit: mapping, the presence checker, declares, transfers, the robot link, loads and
departures (chapters 3 and 4). -/

namespace Sys2Proof.Machine

/-- Change the handling unit's state. -/
def State.onHand (f : Handling → Handling) (s : State) : State := { s with hand := f s.hand }

/-! ### The presence checker -/

/-- The position of sensor `k` is in mismatch (R49). -/
def mismatch (s : State) (k : Nat) : Bool :=
  s.compared (50 + k) && (s.posn (50 + k)).occupant.isSome != s.level k

/-- The debounce of sensor `k` follows its mismatch: the timer starts on entering and stops on leaving, and a debounce
that has elapsed stays so until the mismatch is left (R50, log 25). -/
def State.refreshSensor (k : Nat) (s : State) : State :=
  if mismatch s k then (if s.debounce k == .idle then s.setDebounce k (.running s.now) else s)
  else if s.debounce k == .idle then s
  else s.setDebounce k .idle

/-- All five sensors are compared again after a change of the tables or of a sensor (R49, R50). -/
def State.refreshPresence (s : State) : State :=
  State.refreshSensor 4 (State.refreshSensor 3 (State.refreshSensor 2 (State.refreshSensor 1 (State.refreshSensor 0 s))))

/-- Comparison of a position begins afresh (R50, R54, R56). -/
def State.compareAfresh (p : Nat) (s : State) : State :=
  (if 50 ≤ p then s.setDebounce (p - 50) .idle else s).refreshPresence

/-- The step of a persisting mismatch, with its hand-overs (R51). Whether the PRESENCE_FAULTS count or the sequencer's abort
comes first is the model's choice, by phase (log 37). -/
def State.presenceStep (p : Nat) (missing : Bool) (s : State) : State :=
  let v := s.posn p
  if s.compared p && v.occupant.isSome == missing then
    let s1 := match v.occupant with
      | some w =>
        ((s.setPosn p { v with occupant := none, uncertain := true }).setWafer w
          { s.wafer w with suspect := true, place := .unknown }).name
          [positionWord p, handlingStatus, waferStateWord w]
      | none => (s.setPosn p { v with uncertain := true }).name [positionWord p, handlingStatus]
    let s2 := (s1.onHand fun h => { h with held := true }).refreshPresence
    let s3 := (s2.makeFault .presence p (if missing then 0 else 1)).countFault 12
    if p = Config.posST then s3.presenceNotice else s3
  else s

/-! ### Loads and departures -/

/-- The changes of a load to the tables, named by its step (R79). -/
def State.applyLoad (w : Nat) (s : State) : State :=
  let v := s.wafer w
  let joins := s.lot.st == .opened && !v.member
  let v1 := { v with progress := .loaded, visited := 0 }
  let v2 := if joins then { v1 with member := true, lotTag := s.lot.tag } else v1
  ((s.setWafer w v2).onHand fun h => { h with stage := some w, prior := some v.progress }).name
    ([waferStateWord w, handlingStatus] ++ if joins then [waferTagWord w] else [])

/-- A load, and its notice, after which the lot unit counts the join and zeroes the wafer values (R79, R187, R190). -/
def State.load (w : Nat) (s : State) : State :=
  let joins := s.lot.st == .opened && !(s.wafer w).member
  (s.applyLoad w).goOn (loadSteps joins)

/-- The progress that a departure gives a wafer (R80). -/
def departureProgress (visited pending : Nat) (prior : Option Progress) : Progress :=
  if 0 < visited then (if pending = 0 then .reviewed else .partly) else prior.getD .new

/-- The departure notice and its effects on the other blocks, each of which makes its own steps (R80). -/
def State.departureNotice (w : Nat) (s : State) : State :=
  let s1 := State.departSequencer s (s.departList.departFocus.departTransform.emit .departMotion)
  if 0 < (s.wafer w).visited then s1.emit (countOp s1 0 (some w)) else s1

/-- A departure of the stage wafer: its progress is written and the stage wafer cleared, in the step in hand, and the
notice follows (R80). That the recorded prior progress is then none is the model's choice (log 35). -/
def State.depart (w : Nat) (s : State) : State :=
  let v := s.wafer w
  let s1 := s.setWafer w { v with progress := departureProgress v.visited s.pendingCount s.hand.prior }
  let s2 := (s1.onHand fun h => { h with stage := none, prior := none }).name [waferStateWord w, handlingStatus]
  s2.departureNotice w

/-! ### Transfers -/

/-- The TRANSFER record of a slot (R75, R198, section 12.7). -/
def transferRecord (s : State) (k : Nat) : Record :=
  let t := s.slot k
  { kind := 3, qualifier := t.reason.num, wafer := t.wafer,
    w1 := field 0 6 t.source.num + field 8 6 t.dest + field 16 2 k + field 24 8 t.tag.toNat,
    w2 := t.robotCode.setWidth 32, w3 := (s.wafer t.wafer).id }

/-- The TRANSFER report is staged in the handling staging slot (R75). -/
def State.stageTransfer (k : Nat) (s : State) : State :=
  { s with report := { s.report with handSlot := some (transferRecord s k) } }

/-- A wafer is the wafer of a QUEUED or SENT slot (R61). -/
def waferOfSlot (s : State) (w : Nat) : Bool := [0, 1, 2, 3].any fun k => (s.slot k).open && (s.slot k).wafer == w

/-- A position is claimed as the destination of the SENT transfer (R61). -/
def sentDestination (s : State) (d : Nat) : Bool :=
  match s.sentSlot with
  | none => false
  | some k => (s.slot k).dest == d

/-- The sequencer is IDLE, READY or DONE (R61, R65). -/
def sequencerAside (s : State) : Bool := s.seq.st == .idle || s.seq.st == .ready || s.seq.st == .done

/-- The first slot of a carrier (R41). -/
def carrierBase : Carrier → Nat
  | .a => 0
  | .b => 25

/-- A wafer is UNMAPPED or SUSPECT. -/
def Wafer.lost (v : Wafer) : Bool := v.progress == .unmapped || v.suspect

/-- The result of the checks of a GO for the GO code (R61). -/
def goCheck (s : State) (k : Nat) : Code :=
  let w := (s.slot k).waferCopy.toNat
  let d := (s.slot k).destCopy.toNat
  let v := s.wafer w
  let p := s.posn d
  if (s.slot k).open then .busy
  else if 50 ≤ w ∨ v.lost = true then .badWafer
  else if waferOfSlot s w then .waferBusy
  else if 55 ≤ d ∨ v.place = .pos d then .badDest
  else if d < 50 ∧ d ≠ w then .notHome
  else if p.uncertain then .destUncertain
  else if p.reservation.isSome || sentDestination s d then .destReserved
  else if (match p.occupant with | none => false | some o => !waferOfSlot s o) then .destOccupied
  else if v.place == .pos Config.posST && !sequencerAside s then .stageBusy
  else .ok

/-- An accepted GO (R62). -/
def State.queueTransfer (k : Nat) (s : State) : State :=
  let t := s.slot k
  let d := t.destCopy.toNat
  let s1 := s.setSlot k
    { t with st := .queued, acked := false, reason := .noReason, goResult := .ok, tag := 0, robotCode := 0,
             wafer := t.waferCopy.toNat, dest := d }
  let s2 := s1.setPosn d { s1.posn d with reservation := some k }
  (s2.onHand fun h => { h with queue := h.queue ++ [k] }).name [slotWord k, positionWord d]

/-- The handling unit takes the GO word of a slot (R61, R62). -/
def State.takeGo (k : Nat) (d : Word) (s : State) : State :=
  let result := if d = 1 then goCheck s k else .unknown
  let s1 := if result == .ok then s.queueTransfer k
    else (s.setSlot k { s.slot k with goResult := result }).name [slotWord k]
  s1.emit .finishHost

/-- What a send attempt finds (R65). -/
inductive Attempted where
  | fails (reason : FailReason)
  | waits
  | sends
  deriving DecidableEq, Repr

/-- The checks of a send attempt, in order (R65). -/
def attemptCheck (s : State) (t : Slot) : Attempted :=
  let v := s.wafer t.wafer
  let p := s.posn t.dest
  if v.lost then .fails .badWafer
  else if p.uncertain then .fails .destUncertain
  else if p.occupant.isSome then .fails .destBlocked
  else if v.place == .pos Config.posST && !sequencerAside s then .waits
  else .sends

/-- A MAP of wafer `w`'s own carrier is in progress (R48). -/
def awaitsMap (s : State) (w : Nat) : Bool :=
  (untaken s).any fun op => match op with
    | .mapSlot c _ _ => decide (carrierBase c ≤ w ∧ w < carrierBase c + 25)
    | _ => false

/-- The head transfer would claim a slot of the carrier of a MAP in progress, whose slots are not claimed while it lasts
(R43, R47, R48, log 34). -/
def headAwaitsMap (s : State) : Bool :=
  s.hand.queue.head?.any fun k => attemptCheck s (s.slot k) == .sends && awaitsMap s (s.slot k).wafer

/-- The five conditions of sending, and no wait under R65 standing (R64, R65, R78; R48, log 34). -/
def canAttempt (s : State) : Bool :=
  !s.hand.held && s.sentSlot.isNone && !s.motion.interlock && s.report.handSlot.isNone && !s.hand.queue.isEmpty
    && (!s.hand.headWaits || sequencerAside s) && !headAwaitsMap s

/-- A failure at the send attempt (R65). -/
def State.failTransfer (k : Nat) (reason : FailReason) (s : State) : State :=
  let t := s.slot k
  let s1 := s.setSlot k { t with st := .failed, reason := reason, source := (s.wafer t.wafer).place }
  let s2 := s1.setPosn t.dest { s1.posn t.dest with reservation := none }
  let s3 := (s2.onHand fun h => { h with queue := h.queue.tail, headWaits := false }).name
    [slotWord k, positionWord t.dest]
  s3.stageTransfer k

/-- The ORDER frame of a transfer (R66, R68, R207). -/
def orderFrame (tag : Byte) (source dest : Nat) : List Byte :=
  let a : Byte := BitVec.ofNat 8 source
  let b : Byte := BitVec.ofNat 8 dest
  [0xA5, 0x01, tag, a, b, byteSum [0x01, tag, a, b]]

/-- The number of a place as a position; a wafer that is sent is at a position. -/
def Place.posn : Place → Nat
  | .pos p => p
  | _ => 0

/-- Sending the head transfer (R66). -/
def State.sendTransfer (k : Nat) (s : State) : State :=
  let t := s.slot k
  let src := (s.wafer t.wafer).place.posn
  let tag := s.hand.tagCounter
  let s1 := s.setPosn src { s.posn src with occupant := none, claim := some k }
  let s2 := s1.setPosn t.dest { s1.posn t.dest with reservation := none, claim := some k }
  let s3 := s2.setWafer t.wafer { s2.wafer t.wafer with place := .inTransit }
  let s4 := s3.setSlot k { t with st := .sent, acked := false, tag := tag, source := .pos src }
  let s5 := (s4.onHand fun h =>
    { h with queue := h.queue.tail, headWaits := false, tagCounter := tag + 1, ackTimer := some s.now,
             orderFrame := some (orderFrame tag src t.dest) }).name
    [positionWord src, positionWord t.dest, waferStateWord t.wafer, slotWord k]
  s5.refreshPresence

/-- A send attempt is made if its conditions still hold (R64, R65). -/
def State.sendAttemptStep (s : State) : State :=
  if canAttempt s then
    match s.hand.queue with
    | [] => s
    | k :: _ =>
      match attemptCheck s (s.slot k) with
      | .fails reason => s.failTransfer k reason
      | .waits => s.onHand fun h => { h with headWaits := true }
      | .sends => s.sendTransfer k
  else s

/-- Both timers of the SENT transfer stop. -/
def State.stopRobotTimers (s : State) : State := s.onHand fun h => { h with ackTimer := none, doneTimer := none }

/-- The wafer of a transfer is restored to its source, and the slot fails (R71, R72). -/
def State.restoreTransfer (k : Nat) (reason : FailReason) (code : Byte) (s : State) : State :=
  let t := s.slot k
  let src := t.source.posn
  let s1 := s.setPosn src { s.posn src with occupant := some t.wafer, claim := none }
  let s2 := s1.setPosn t.dest { s1.posn t.dest with claim := none }
  let s3 := s2.setWafer t.wafer { s2.wafer t.wafer with place := .pos src }
  let s4 := s3.setSlot k { t with st := .failed, acked := false, reason := reason, robotCode := code }
  (s4.stopRobotTimers.name [positionWord src, positionWord t.dest, waferStateWord t.wafer, slotWord k])

/-- The TRANSFER fault of a slot (R75, section 12.7). -/
def State.transferFaulted (k : Nat) (s : State) : State :=
  let t := s.slot k
  s.makeFault .transfer t.dest (BitVec.ofNat 16 (t.reason.num + 256 * t.robotCode.toNat))

/-- The ACK timeout of a slot (R71). -/
def State.ackTimeout (k : Nat) (s : State) : State :=
  let s1 := (s.restoreTransfer k .ackTimeout 0).onHand fun h => { h with held := true }
  (((s1.name [handlingStatus]).transferFaulted k).stageTransfer k).refreshPresence

/-- A NAK (R72). -/
def State.refuseTransfer (k : Nat) (code : Byte) (s : State) : State :=
  ((s.restoreTransfer k .robotRefused code).stageTransfer k).refreshPresence

/-- A transfer fault (R74, R75). -/
def State.transferFault (k : Nat) (reason : FailReason) (code : Byte) (s : State) : State :=
  let t := s.slot k
  let src := t.source.posn
  let s1 := s.setPosn src { s.posn src with occupant := none, claim := none, uncertain := true }
  let s2 := s1.setPosn t.dest { s1.posn t.dest with occupant := none, claim := none, uncertain := true }
  let s3 := s2.setWafer t.wafer { s2.wafer t.wafer with suspect := true, place := .unknown }
  let s4 := s3.setSlot k { t with st := .failed, acked := false, reason := reason, robotCode := code }
  let s5 := (s4.stopRobotTimers.onHand fun h => { h with held := true }).name
    [positionWord src, positionWord t.dest, waferStateWord t.wafer, slotWord k, handlingStatus]
  (((s5.transferFaulted k).stageTransfer k).countFault 13).refreshPresence

/-- A completed transfer, with the load or the departure that it is (R73, R79, R80). -/
def State.completeTransfer (k : Nat) (s : State) : State :=
  let t := s.slot k
  let src := t.source.posn
  let s1 := s.setPosn t.dest { s.posn t.dest with occupant := some t.wafer, claim := none }
  let s2 := s1.setPosn src { s1.posn src with claim := none }
  let s3 := s2.setWafer t.wafer { s2.wafer t.wafer with place := .pos t.dest }
  let s4 := s3.setSlot k { t with st := .done, acked := false }
  let s5 := (s4.stopRobotTimers.name
    [positionWord t.dest, positionWord src, waferStateWord t.wafer, slotWord k]).stageTransfer k
  let s6 :=
    if t.dest = Config.posST then s5.load t.wafer
    else if src = Config.posST ∧ s5.hand.stage = some t.wafer then s5.depart t.wafer
    else s5
  s6.refreshPresence

/-- A stray reply (R70). -/
def State.stray (s : State) : State := s.event .linkStray

/-- A robot reply is matched against the SENT slot and its phase (R70). -/
def State.replyStep (kind : ReplyKind) (tag a : Byte) (s : State) : State :=
  match s.sentSlot with
  | none => s.stray
  | some k =>
    let t := s.slot k
    if t.tag != tag then s.stray
    else match kind, t.acked with
      | .ack, false =>
        ((s.setSlot k { t with acked := true }).onHand fun h =>
          { h with ackTimer := none, doneTimer := some s.now }).name [slotWord k]
      | .ack, true => s.stray
      | .nak, false => s.refuseTransfer k a
      | .nak, true => s.stray
      | .done, _ => s.completeTransfer k
      | .fault, _ => s.transferFault k .robotFault a

/-- The expiry of the ACK timer, where its slot still awaits its ACK (R71). -/
def State.ackExpiredStep (s : State) : State :=
  match s.sentSlot with
  | none => s
  | some k => if (s.slot k).acked then s else s.ackTimeout k

/-- The expiry of the DONE timer, where its slot still awaits its DONE (R74). -/
def State.doneExpiredStep (s : State) : State :=
  match s.sentSlot with
  | none => s
  | some k => if (s.slot k).acked then s.transferFault k .doneTimeout 0 else s

/-! ### The robot receiver -/

/-- What the receiver finds in a byte (R69). -/
inductive Received where
  | nothing
  | discarded
  | complete (type tag a b check : Byte)
  deriving DecidableEq, Repr

/-- The receiver takes a byte (R69). -/
def RobotRx.take (now : Nat) (b : Byte) : RobotRx → RobotRx × Received
  | .hunt => if b = 0xA5 then (.frame [] now, .nothing) else (.hunt, .discarded)
  | .frame bytes _ =>
    match bytes ++ [b] with
    | [t, g, x, y, c] => (.hunt, .complete t g x y c)
    | bs => (.frame bs now, .nothing)

/-- The reply type of a code (R68, R207). -/
def replyKind (type : Byte) : Option ReplyKind :=
  match type.toNat with
  | 2 => some .ack
  | 3 => some .nak
  | 4 => some .done
  | 5 => some .fault
  | _ => none

/-- What the receiver found takes effect: a discarded byte or frame reports LINK_ERROR, and a reply is taken
(R69, R70). -/
def State.received (r : Received) (s : State) : State :=
  match r with
  | .nothing => s
  | .discarded => s.event .linkError
  | .complete type tag a b check =>
    if check != byteSum [type, tag, a, b] then s.event .linkError
    else match replyKind type with
      | none => s.event .linkError
      | some kind => s.emit (.reply kind tag a)

/-- A byte is received on ROBOT_RX (R69). -/
def State.receiveByte (b : Byte) (s : State) : State :=
  let r := s.hand.rx.take s.now b
  (s.onHand fun h => { h with rx := r.1 }).received r.2

/-- Bytes are received on ROBOT_RX, back to back. -/
def State.receiveBytes (bs : List Byte) (s : State) : State := bs.foldl (fun s b => s.receiveByte b) s

/-- The frame in hand is abandoned and LINK_ERROR reported (R69). -/
def State.abandonFrame (s : State) : State := (s.onHand fun h => { h with rx := .hunt }).event .linkError

/-- The bytes of a robot frame (R68). -/
def robotFrame (type tag a b check : Byte) : List Byte := [0xA5, type, tag, a, b, check]

/-- The bytes of a frame that are still to come: where the receiver has already collected the beginning of the frame,
only the rest of it (log 27). -/
def restOfFrame (rx : RobotRx) (fr : List Byte) : List Byte :=
  match rx with
  | .frame bytes _ => if (0xA5 :: bytes).isPrefixOf fr then fr.drop (bytes.length + 1) else fr
  | .hunt => fr

/-- A robot frame is received (R69). -/
def State.receiveFrame (type tag a b check : Byte) (s : State) : State :=
  s.receiveBytes (restOfFrame s.hand.rx (robotFrame type tag a b check))

/-! ### Mapping -/

/-- The conditions under which MAP is refused with BUSY (R47). -/
def mapBusy (s : State) (c : Carrier) : Bool :=
  (List.range 25).any fun i =>
    let w := carrierBase c + i
    ((s.wafer w).progress != .unmapped && (s.wafer w).place != .pos w)
      || (s.posn w).claim.isSome || (s.posn w).reservation.isSome

/-- A wafer that a MAP finds present (R48). -/
def mappedWafer (v : Wafer) (w : Nat) : Wafer :=
  { v with place := .pos w, progress := .new, suspect := false, visited := 0 }

/-- A wafer that is UNMAPPED: by MAP, or by a DECLARE with target ABSENT, which keeps the visited count (R48, R54). -/
def unmapWafer (v : Wafer) : Wafer :=
  { v with place := .unknown, progress := .unmapped, suspect := false, member := false, lotTag := 0 }

/-- A MAP step: slot k of the carrier, or the last step, with the result code (R48). -/
def State.mapStep (c : Carrier) (k : Nat) (pattern : Word) (s : State) : State :=
  if k < 25 then
    let w := carrierBase c + k
    let v := s.wafer w
    let present := pattern.getLsbD k
    let v1 := if present then mappedWafer v w else { unmapWafer v with visited := 0 }
    let p := s.posn w
    let s1 := (s.setWafer w v1).setPosn w { p with occupant := if present then some w else none, uncertain := false }
    (s1.name ([positionWord w, waferStateWord w] ++ if v1.lotTag = v.lotTag then [] else [waferTagWord w])).goOn
      [.mapSlot c (k + 1) pattern]
  else (s.onHand fun h => { h with result := .ok }).name [handlingStatus]

/-! ### Declares -/

/-- The target ABSENT (section 12.4). -/
def absent : Nat := 255

/-- The result of the checks of a DECLARE (R54, R55). -/
def declareCheck (s : State) (w t : Nat) : Code :=
  let p := s.posn t
  if 50 ≤ w ∨ (55 ≤ t ∧ t ≠ absent) then .range
  else if !(s.wafer w).lost then .state
  else if t < 50 ∧ t ≠ w then .range
  else if t ≠ absent ∧ (p.occupant.isSome = true ∨ p.claim.isSome = true) then .state
  else if t = Config.posST ∧ s.hand.stage ≠ none ∧ s.hand.stage ≠ some w then .state
  else if t ≠ Config.posST ∧ s.hand.stage = some w ∧ (s.seq.st = .running ∨ s.seq.st = .probing) then .state
  else .ok

/-- A wafer declared at a position (R54). -/
def declaredWafer (v : Wafer) (t : Nat) : Wafer :=
  let v1 := { v with place := .pos t, suspect := false }
  if v.progress == .unmapped then { v1 with progress := .new, visited := 0 } else v1

/-- The DECLARE's own step (R54). -/
def State.declareStep (w t : Nat) (s : State) : State :=
  let v := s.wafer w
  let s1 := s.onHand fun h => { h with result := .ok }
  if t = absent then
    (s1.setWafer w (unmapWafer v)).name
      ([waferStateWord w] ++ (if v.lotTag = 0 then [] else [waferTagWord w]) ++ [handlingStatus])
  else
    let s2 := (s1.setWafer w (declaredWafer v t)).setPosn t { s1.posn t with occupant := some w, uncertain := false }
    (s2.name [waferStateWord w, positionWord t, handlingStatus]).compareAfresh t

/-- An accepted DECLARE: its step, with the declared load or departure before or after it (R55). -/
def State.declareOps (w t : Nat) (s : State) : State :=
  if t = absent ∧ s.hand.stage = some w then s.emits [.declaredDeparture w, .declareStep w t, .finishHost]
  else
    let s1 := s.declareStep w t
    let ops : List StepOp :=
      if t = Config.posST ∧ s.hand.stage = none then [.declaredLoad w]
      else if t ≠ Config.posST ∧ s.hand.stage = some w then [.declaredDeparture w]
      else []
    s1.emits (ops ++ [.finishHost])

/-- The result of the checks of a DECLARE_EMPTY (R56). -/
def declareEmptyCheck (s : State) (t : Nat) : Code :=
  let p := s.posn t
  if 55 ≤ t then .range
  else if p.occupant.isSome || p.claim.isSome then .state
  else if t = Config.posST ∧ s.hand.stage ≠ none ∧ p.occupant ≠ s.hand.stage then .state
  else .ok

/-- An accepted DECLARE_EMPTY (R56). -/
def State.declareEmpty (t : Nat) (s : State) : State :=
  (((s.setPosn t { s.posn t with uncertain := false }).onHand fun h => { h with result := .ok }).name
    [positionWord t, handlingStatus]).compareAfresh t

/-! ### RESUME_HANDLING and CANCEL -/

/-- A non-slot position is UNCERTAIN and reserved by a QUEUED slot (R76). -/
def reservedInDoubt (s : State) : Bool :=
  (List.range 5).any fun i =>
    let p := s.posn (50 + i)
    p.uncertain && match p.reservation with | none => false | some k => (s.slot k).st == .queued

/-- CANCEL of a QUEUED slot (R77). -/
def State.cancelTransfer (k : Nat) (s : State) : State :=
  let t := s.slot k
  let s1 := s.setSlot k { t with st := .failed, reason := .cancelled }
  let s2 := s1.setPosn t.dest { s1.posn t.dest with reservation := none }
  let waits := s.hand.headWaits && s.hand.queue.head? != some k
  (s2.onHand fun h => { h with queue := h.queue.erase k, headWaits := waits, result := .ok }).name
    [slotWord k, positionWord t.dest, handlingStatus]

/-- A refused handling request: one step naming the handling status word (R46). -/
def State.refuseHandling (c : Code) (s : State) : State :=
  ((s.onHand fun h => { h with result := c }).name [handlingStatus]).emit .finishHost

/-- The handling unit takes its control word (R46 to R48, R54 to R56, R76, R77). -/
def State.takeHandling (d : Word) (s : State) : State :=
  let w := getField s.hand.declareWord 0 8
  let t := getField s.hand.declareWord 8 8
  let map (c : Carrier) : State :=
    if mapBusy s c then s.refuseHandling .busy else s.emits [.mapSlot c 0 s.hand.mapPattern, .finishHost]
  match getField d 0 4 with
  | 1 =>
    match getField d 8 2 with
    | 1 => map .a
    | 2 => map .b
    | _ => s.refuseHandling .unknown
  | 2 => if declareCheck s w t == .ok then s.declareOps w t else s.refuseHandling (declareCheck s w t)
  | 3 =>
    if declareEmptyCheck s t == .ok then (s.declareEmpty t).emit .finishHost
    else s.refuseHandling (declareEmptyCheck s t)
  | 4 =>
    if s.hand.held && reservedInDoubt s then s.refuseHandling .state
    else
      ((s.onHand fun h =>
        { h with held := false, headWaits := h.headWaits && !h.held, result := .ok }).name [handlingStatus]).emit
        .finishHost
  | 5 =>
    let k := getField d 12 2
    if (s.slot k).st == .queued then (s.cancelTransfer k).emit .finishHost else s.refuseHandling .state
  | _ => s.refuseHandling .unknown

end Sys2Proof.Machine
end

