-- ==== Sys2Proof/Machine/PlanUnit.lean ====
section
/-! DEFINITION. The plan unit: validation, adoption, start-up, commits, and the reset of the whole part (chapter 2, and
the reset rules of every chapter). -/

namespace Sys2Proof.Machine

/-- Change the plan unit's state. -/
def State.onPlan (f : PlanUnit → PlanUnit) (s : State) : State := { s with planU := f s.planU }

/-! ### Validation -/

/-- The check of a plan word (R27). -/
inductive WordCheck where
  | signature
  | base
  | capacity
  | clamp (lo hi : Nat)
  | pitch
  | signed
  deriving DecidableEq, Repr

/-- The checks of the 35 plan words in ascending offset, the word at offset 4·i being number i (R27, section 12.2). -/
def planChecks : List WordCheck :=
  [.signature, .base, .base, .base, .base, .base, .base, .capacity, .clamp 16 1024, .clamp 1 64, .clamp 1 1000,
   .clamp 1 3, .clamp 1 8, .clamp 1 512, .clamp 10 2000, .pitch, .signed, .signed, .signed, .signed, .signed, .signed,
   .signed, .signed, .signed, .clamp 1 65535, .clamp 0 65535, .clamp 10 10000, .clamp 1 500, .clamp 1 100,
   .clamp 100 60000, .clamp 10 1000, .clamp 1000 120000, .clamp 5 500, .clamp 100000 50000000]

/-- A plan word after its check: refused, or a value that was clamped or not (R28). -/
inductive Checked where
  | refused (r : PlanResult)
  | value (v : Int) (clamped : Bool)
  deriving DecidableEq, Repr

/-- A value clamped into a range (R27). -/
def clampNat (lo hi v : Nat) : Nat := if v < lo then lo else if hi < v then hi else v

/-- A value outside a clamping range takes the nearer limit (R28). -/
def checkRange (lo hi v : Nat) : Checked := .value (clampNat lo hi v) (clampNat lo hi v != v)

/-- The word pass's check of one word (R28). -/
def checkWord (c : WordCheck) (w : Word) : Checked :=
  let v := w.toNat
  match c with
  | .signature => if w = Config.planSignature then .value v false else .refused .signature
  | .base => if v % 4096 = 0 then .value (v % 2 ^ 28) false else .refused .align
  | .capacity => if v < 256 ∨ 4096 < v then .refused .capacity else .value (v / 32 * 32) (v % 32 != 0)
  | .clamp lo hi => checkRange lo hi v
  | .pitch => if v < 1000000 ∨ 32000000 < v then .refused .pitch else .value v false
  | .signed => .value w.toInt false

/-- What validation comes to. -/
inductive Validation where
  | refused (r : PlanResult) (off : Nat)
  | valid (p : Plan) (clamps first : Nat)
  deriving DecidableEq, Repr

/-- The word pass from word number `i` on: the first refused word, or the values and the offsets of the clamped words
(R28). -/
def wordPass (copies : Table Word) : Nat → List WordCheck → (PlanResult × Nat) ⊕ (List Int × List Nat)
  | _, [] => .inr ([], [])
  | i, c :: cs =>
    match checkWord c (copies.get 0 i) with
    | .refused r => .inl (r, 4 * i)
    | .value v clamped =>
      match wordPass copies (i + 1) cs with
      | .inl e => .inl e
      | .inr (vs, os) => .inr (v :: vs, if clamped then 4 * i :: os else os)

/-- The plan of the values of the word pass, by word number (section 12.2). -/
def planOf (vs : List Int) : Plan :=
  let n := fun i => (vs.getD i 0).toNat
  let z := fun i => vs.getD i 0
  { handlingBase := n 1, stageBase := n 2, focusBase := n 3, defectBase := n 4, lotBase := n 5, ringBase := n 6,
    capacity := n 7, ringLength := n 8, coalesceCount := n 9, coalesceTime := n 10, maxAttempts := n 11,
    focusSamples := n 12, focusGain := n 13, focusTolerance := n 14, pitch := n 15, x0 := z 16, y0 := z 17,
    zMin := z 18, zMax := z 19, nominalZ := z 20, travelXMin := z 21, travelXMax := z 22, travelYMin := z 23,
    travelYMax := z 24, arrivalWindow := n 25, settleTime := n 26, moveTimeout := n 27, focusSettleTimeout := n 28,
    sampleTimeout := n 29, verdictTimeout := n 30, robotAckTimeout := n 31, robotDoneTimeout := n 32,
    presenceDebounce := n 33, bandHeight := n 34 }

/-- The limit pair that the cross pass refuses, by the offset of its minimum word (R29). -/
def limitsRefusal (p : Plan) : Option Nat :=
  if p.travelXMax < p.travelXMin then some 0x54
  else if p.travelYMax < p.travelYMin then some 0x5C
  else if p.zMax < p.zMin then some 0x48
  else none

/-- Two extents share a byte. -/
def overlap (a b : Nat × Nat) : Bool := decide (a.1 < b.1 + b.2 ∧ b.1 < a.1 + a.2)

/-- The placement check of the windows after those already placed, the base word of a window being at `off` (R29). -/
def placementRefusal (p : Plan) (placed : List (Nat × Nat)) : Nat → List Win → Option (PlanResult × Nat)
  | _, [] => none
  | off, w :: ws =>
    let e := winExtent p w
    if 2 ^ 28 < e.1 + e.2 then some (.align, off)
    else if placed.any (overlap e) then some (.overlap, off)
    else placementRefusal p (e :: placed) (off + 4) ws

/-- The lowest of a list of offsets; 0 for none. -/
def lowest : List Nat → Nat
  | [] => 0
  | o :: os => os.foldl min o

/-- The cross pass (R29). -/
def crossPass (planBase : Nat) (p : Plan) (clamped : List Nat) : Validation :=
  match limitsRefusal p with
  | some off => .refused .limits off
  | none =>
    let z := clampInt p.zMin p.zMax p.nominalZ
    let clamped1 := if z = p.nominalZ then clamped else clamped ++ [0x50]
    let p1 := { p with nominalZ := z }
    match placementRefusal p1 [(planBase, Config.planBlockSize)] 0x04 workingWindows with
    | some (r, off) => .refused r off
    | none => .valid p1 clamped1.length (lowest clamped1)

/-- Validation of the copies of the plan words (R28). -/
def validatePlan (planBase : Nat) (copies : Table Word) : Validation :=
  match wordPass copies 0 planChecks with
  | .inl (r, off) => .refused r off
  | .inr (vs, clamped) => crossPass planBase (planOf vs) clamped

/-! ### Adoption -/

/-- The words of the adoption steps: the plan status in one step, every other H word of the plan block, of the six
window headers, of the position and wafer tables and of the focus nodes in a step of its own, in that order, which the
spec leaves open (R18, R33, R38, log 11). -/
def adoptWords : List (List WordRef) :=
  let single (ws : List WordRef) : List (List WordRef) := ws.map fun w => [w]
  [planStatusWords]
    ++ single ((List.range 9).map capabilityWord)
    ++ single ((List.range 4).map slotWord ++ [handlingStatus])
    ++ single (stageStatus ++ [trigCountWord] ++ transformStatus ++ viewResults)
    ++ single [focusResultWord, baseHeightWord, lastZWord, lastAttemptWord, loopStatusWord, setpointWord]
    ++ single queryResults
    ++ single ([listStatus, seqResultWord] ++ dispatchWords ++ [verdictResultWord] ++ probeResults ++ countWords
        ++ imagedWords)
    ++ single (lotStateWords ++ (List.range 16).flatMap (fun i => [attrWord i 0, attrWord i 1, attrWord i 3])
        ++ (List.range 16).map histWord)
    ++ single [producerWord, unreadWord, stallWord]
    ++ single ((List.range 55).map positionWord)
    ++ single ((List.range 50).flatMap fun w => [waferStateWord w, waferTagWord w])
    ++ single ((List.range 289).flatMap fun n => [nodeWord n 0, nodeWord n 1])

/-- The number of adoption steps. -/
def adoptCount : Nat := adoptWords.length

/-- The plan unit at an adoption; the standing stays STARTING until start-up has ended (R32, R33, R38). -/
def PlanUnit.adopt (clamps first : Nat) (u : PlanUnit) : PlanUnit :=
  { u with
    standing := if u.standing == .starting then .starting else .adopted
    work := .idle, validation := .accepted, offending := 0, clampCount := clamps, firstClamp := first,
    adoptions := u.adoptions + 1 }

/-- The stage wafer at an adoption: ALIGNED or REVIEWING becomes LOADED (R38, R59). -/
def State.adoptStageWafer (s : State) : State :=
  match s.hand.stage with
  | none => s
  | some w =>
    let v := s.wafer w
    if v.progress == .aligned || v.progress == .reviewing then s.setWafer w { v with progress := .loaded } else s

/-- The motion unit at an adoption (R103). -/
def Motion.adopt (m : Motion) : Motion := { m with shadow := none, presetX := 0, presetY := 0 }

/-- The transform unit at an adoption; an operation in service runs to its end (R121, R122). -/
def Transform.adopt (t : Transform) : Transform := { service := discardService t.service }

/-- The focus unit at an adoption (R143); the adoption steps are a clearing of the map (R129). -/
def Focus.adopt (p : Plan) (u : Focus) : Focus :=
  { nodes := u.nodes.mapVals Node.invalidate
    base := ofSigned p.nominalZ
    lastZ := ofSigned p.nominalZ
    setpoint := u.setpoint
    frame := u.frame
    fsettled := u.fsettled
    hsample := u.hsample
    service := u.service.map fun v => { v with discard := true }
    clearing := 1 }

/-- The report unit at an adoption (R205). -/
def Report.adopt (r : Report) : Report :=
  { faultSlot := r.faultSlot, pendingFaults := r.pendingFaults, seqNo := r.seqNo }

/-- The debounce time in µs (R50). -/
def debounceUs (s : State) : Nat := 1000 * (s.plan.map (·.presenceDebounce)).getD Config.bareDebounceMs

/-- A debounce that the new debounce time has already ended is judged at the adoption moment: its timer stops then, and
its step waits behind the adoption steps (R39, R50, log 25). -/
def State.judgeElapsed (k : Nat) (s : State) : State :=
  match s.debounceTimer k with
  | some t =>
    if t + debounceUs s ≤ s.now then
      (s.setDebounce k .elapsed).emit (.presence (50 + k) (s.posn (50 + k)).occupant.isSome)
    else s
  | none => s

/-- The debounces in progress at the adoption moment (R39). -/
def State.judgeDebounces (s : State) : State := (List.range 5).foldl (fun s k => s.judgeElapsed k) s

/-- The adoption of a valid plan in one event: the map, every block's clearing, the adoption steps (R33, R38). A host
access in progress keeps its map until it completes (R4); a P word that the rest of its burst writes after this moment
under the old map is copied as ever, so that copy need not be zero when the new map comes into force (R7, log 30). -/
def State.adopt (p : Plan) (clamps first : Nat) (s : State) : State :=
  let s1 := s.adoptStageWafer
  let s2 := { s1 with
    plan := some p
    map := if s.hostMore || s.hostBusy then s.map else some p
    planU := s1.planU.adopt clamps first
    motion := s1.motion.adopt
    xform := s1.xform.adopt
    focus := s1.focus.adopt p
    defects := {}
    seq := {}
    lot := {}
    report := s1.report.adopt }
  (s2.emit (.adoption 0)).judgeDebounces.stageFault

/-- What the last adoption step ends: start-up, and the clearing of the map (R32, R129). -/
def State.adoptionEnded (s : State) : State :=
  State.endClearing (s.onPlan fun u => { u with standing := if u.standing == .starting then .adopted else u.standing })

/-- Adoption step k (R33, R38). -/
def State.adoptionStep (k : Nat) (s : State) : State :=
  let s1 := s.name (adoptWords.getD k [])
  if k + 1 < adoptCount then s1.goOn [.adoption (k + 1)] else s1.adoptionEnded

/-! ### Start-up and commits -/

/-- A validation has refused the plan: the status fields (R30). -/
def PlanUnit.refuse (r : PlanResult) (off : Nat) (u : PlanUnit) : PlanUnit :=
  { u with work := .idle, validation := r, offending := off, clampCount := 0, firstClamp := 0 }

/-- A refused start-up: the status step and the two capability steps (R34). -/
def State.refuseStartUp (r : PlanResult) (off : Nat) (s : State) : State :=
  let s1 := s.onPlan (PlanUnit.refuse r off)
  let step (ws : List WordRef) : StepOp := .publish (changesOf s s1 ws)
  s1.emits [step planStatusWords, step ((List.range 8).map capabilityWord), step [capabilityWord 8], .startUpEnd]

/-- The last step of a refused start-up has been taken (R32, R34). -/
def State.startUpEnded (s : State) : State := s.onPlan fun u => { u with standing := .bare }

/-- The standing that a commit leaves when it is refused (R37). -/
def priorStanding (s : State) : Standing := if s.plan.isSome then .adopted else .bare

/-- A commit that ends in refusal (R37). -/
def State.refuseCommit (r : PlanResult) (off : Nat) (s : State) : State :=
  s.change planStatusWords fun s => s.onPlan fun u => { u.refuse r off with standing := priorStanding s }

/-- Validation at the end of the reads, and its outcome (R32, R33, R34, R36, R37). -/
def State.validated (s : State) : State :=
  match validatePlan s.planBase s.planU.copies with
  | .refused r off => if s.planU.standing == .starting then s.refuseStartUp r off else s.refuseCommit r off
  | .valid p clamps first =>
    if s.planU.standing == .starting then s.adopt p clamps first
    else s.onPlan fun u => { u with work := .awaiting p clamps first }

/-- The completion of the plan read of word k (R26, R32). -/
def State.planReadDone (k : Nat) (s : State) : State :=
  let a := s.planBase + 4 * k
  let w := readWordAt s.mem a
  let s1 := { s with mAccess := some { addr := a, write := false, words := [(15, w)] } }
  let s2 := if k < 35 then s1.onPlan fun u => { u with copies := u.copies.set k w } else s1
  if k < 63 then s2.onPlan fun u => { u with work := .reading (k + 1) } else s2.validated

/-- The conditions of R35 other than standing COMMITTING. -/
def workOpen (s : State) : Bool :=
  s.lot.st == .opened || s.seq.st != .idle || ([0, 1, 2, 3].any fun k => (s.slot k).open)

/-- The plan unit takes the commit word (R35). -/
def State.takeCommit (d : Word) (s : State) : State :=
  let result (c : Code) : State :=
    ((s.onPlan fun u => { u with commitResult := c }).name planStatusWords).emit .finishHost
  if d ≠ Config.commitCode then result .unknown
  else if s.planU.standing == .committing || workOpen s then result .busy
  else
    ((s.onPlan fun u => { u with commitResult := .ok, standing := .committing, work := .draining }).name
      planStatusWords).emit .finishHost

/-- The queue holds no entry and no step waits for one (R20). -/
def queueEmpty (s : State) : Bool := s.queue.isEmpty && s.waiting.isEmpty

/-- The adoption moment (R36). -/
def State.adoptionMoment (s : State) : State :=
  match s.planU.work with
  | .awaiting p clamps first =>
    if queueEmpty s && s.xform.view.isNone && s.focus.query.isNone then
      if workOpen s then s.refuseCommit .workOpen 0 else s.adopt p clamps first
    else s
  | _ => s

/-! ### Reset -/

/-- The copies of the handling window's P words become zero. -/
def Handling.dropCopies (h : Handling) : Handling :=
  { h with
    wafers := h.wafers.mapVals fun v => { v with id := 0 }
    slots := h.slots.mapVals fun t => { t with waferCopy := 0, destCopy := 0 }
    declareWord := 0, mapPattern := 0 }

/-- What the assertion of RESET_N abandons in the handling unit (R57, R81). -/
def Handling.abandon (h : Handling) : Handling :=
  { h.dropCopies with ackTimer := none, doneTimer := none, orderFrame := none, rx := .hunt, debounce := [] }

/-- What the assertion of RESET_N abandons in the motion unit (R104). -/
def Motion.abandon (m : Motion) : Motion :=
  { m with presetX := 0, presetY := 0, frame := none, heldMove := none, trigPulse := none, trigWait := false,
           moveTimer := none, settleTimer := none }

/-- What the assertion of RESET_N abandons in the transform unit (R113, R121). -/
def Transform.abandon (t : Transform) : Transform :=
  { t with copies := [], pendingCommit := none, service := none, seqPlace := none, commitPlace := false,
           viewPlace := false, view := none }

/-- What the assertion of RESET_N abandons in the focus unit (R143). -/
def Focus.abandon (u : Focus) : Focus :=
  { u with attempt := none, settleTimer := none, sampleTimer := none, frame := none, waitingFrame := none,
           hsample := none, service := none, seqPlace := false, queryPlace := false, clearing := 0, learns := [],
           query := none, seedIndex := 0, seedValue := 0, queryX := 0, queryY := 0 }

/-- The copies of the defect window become zero. -/
def DefectList.dropCopies (l : DefectList) : DefectList :=
  { l with recs := l.recs.mapVals fun r => { r with x := 0, y := 0, info := 0, tag := 0 }, quotas := [], census := 0 }

/-- What the assertion of RESET_N abandons in the sequencer (R184). -/
def Sequencer.abandon (q : Sequencer) : Sequencer :=
  { q with verdictTimer := none, staging := none, outstanding := none, targetWait := false, selecting := false,
           probeX := 0, probeY := 0 }

/-- The copies of the lot window become zero. -/
def Lot.dropCopies (l : Lot) : Lot :=
  { l with attrs := l.attrs.mapVals fun a => { a with threshold := 0 }, tagCopy := 0, expectedCopy := 0, holdCopy := 0 }

/-- What the assertion of RESET_N discards in the report unit (R205). -/
def Report.abandon (r : Report) : Report :=
  { r with faultSlot := none, handSlot := none, seqSlot := none, lotSlot := none, pendingFaults := [],
           coalesce := .stopped, consumer := 0, mask := 0 }

/-- The assertion of RESET_N: the host access, the queue and the steps are abandoned, every copy is zero, and every
block's work ends (R24, R40, R104, R113, R121, R143, R184, R205). Memory is kept. -/
def State.assertReset (s : State) : State :=
  { s with
    inReset := true, hReady := false, hostBusy := false, hostMore := false, hostWaits := none, map := none,
    plan := none, queue := [], waiting := [], made := [], sequel := [], named := []
    planU := { s.planU with copies := [], work := .idle }
    hand := s.hand.abandon
    motion := s.motion.abandon
    xform := s.xform.abandon
    focus := s.focus.abandon
    defects := s.defects.dropCopies
    seq := s.seq.abandon
    lot := s.lot.dropCopies
    report := s.report.abandon }

/-- The positions 50 to 54 at the release: UNCERTAIN where the sensor shows a wafer (R57). -/
def releasedPositions (pres : BitVec 5) : Table Position :=
  ((List.range 5).filter fun k => pres.getLsbD k).map fun k => (50 + k, { uncertain := true })

/-- The release of RESET_N: every block holds its reset values, the pins are sampled, the stage STOP frame is sent, and
the plan unit is about to read word 0 (R32, R57, R81, R82, R102, R122, R143, R159, R184, R197, R205). -/
def State.releaseReset (pins : Pins) (s : State) : State :=
  let f := State.reset
  { f with
    pending := s.pending
    mem := s.mem
    openCount := s.openCount
    planSel := pins.planSel
    hand := { f.hand with pres := pins.pres, positions := releasedPositions pins.pres }
    motion := { f.motion with
      x := { f.motion.x with phase := pins.xPhase }, y := { f.motion.y with phase := pins.yPhase },
      interlock := pins.interlock }
    focus := { f.focus with fsettled := pins.fsettled } }

end Sys2Proof.Machine
end

