-- ==== Sys2Proof/Machine/Steps.lean ====
section
/-! DEFINITION. The steps: how a request is handed to its block, what each operation does when its step is taken, and
how steps are taken into the write-back queue or wait (R11, R17, R18, log 3). -/

namespace Sys2Proof.Machine

/-! ### Requests -/

/-- The motion unit takes the stage control word (R85, R86, R99, R100). -/
def State.takeStageControl (d : Word) (s : State) : State :=
  match d.toNat with
  | 1 => (s.takePreset.name stageStatus).emit .finishHost
  | 2 => (s.takeEnable.name stageStatus).emit .finishHost
  | 3 =>
    let s1 := s.takeDisable.name stageStatus
    (if s.motion.enable then (s1.abortNotice false).abortFocus true else s1).emit .finishHost
  | _ => ((s.stageResult .unknown).name stageStatus).emit .finishHost

/-- The owning block takes a request (R11). -/
def State.takeRequest (w : WordRef) (d : Word) (s : State) : State :=
  match w.win with
  | .plan => s.takeCommit d
  | .handling => if w.off = 0x440 then s.takeHandling d else s.takeGo ((w.off - 0x400) / 16) d
  | .stage =>
    if w.off = 0x018 then s.takeStageControl d
    else if w.off = 0x068 then s.takeAlignment d
    else s.takeView d
  | .focus => if w.off = 0x918 then s.takeFocusControl d else s.takeQuery d
  | .defect =>
    if w.off = 0x000 then s.takeSeal d
    else if w.off = 0x008 then s.takeSeqControl d
    else if w.off = 0x018 then s.takeVerdict d
    else s.takeDisposition ((w.off - 0x1000) / 32) d
  | .lot => s.takeLotControl d
  | .ring => s.emit .finishHost

/-- The request word is finished; a new window map comes into force once the host access completes (R4, R11). -/
def State.finishRequest (s : State) : State :=
  { s with hostBusy := false, hReady := true, map := if s.hostMore then s.map else s.plan }

/-! ### Postings -/

/-- The producer of a slot is told that it has been emptied (R176, R189, R199, R202). -/
def State.slotEmptied (k : Producer) (s : State) : State :=
  match k with
  | .fault => s.stageFault
  | .handling => s
  | .sequencer => s.endStagingWait
  | .lot => s.stageDeferred

/-- The posting step: the record chosen is posted, and leaves its slot (R199). The ring window is taken to be in force from
the adoption moment on: the model's choice (log 38). -/
def State.postingStep (k : Producer) (s : State) : State :=
  match s.plan, s.report.slot k with
  | some p, some r =>
    if ringSpace s then
      let s1 := s.postRecord p r
      State.slotEmptied k { s1 with report := s1.report.clearSlot k }
    else s
  | _, _ => s

/-! ### Operations -/

/-- What an operation does when its step is taken: the changes of the tables, the words named, the steps made in the
same event, and what the operation goes on with. -/
def runOp (op : StepOp) (s : State) : State :=
  match op with
  | .publish cs => s.name (cs.map (·.word))
  | .finishHost => s.finishRequest
  | .request w d => s.takeRequest w d
  | .controlResult => s.controlResultStep
  | .loadCycle k full => s.loadCycleStep k full
  | .consumer be d => s.judgeConsumer be d
  | .adoption k => s.adoptionStep k
  | .startUpEnd => s.startUpEnded
  | .mapSlot c k p => s.mapStep c k p
  | .declareStep w t => s.declareStep w t
  | .declaredLoad w => s.load w
  | .declaredDeparture w => (s.depart w).goOn [.departureEnd]
  | .sendAttempt => s.sendAttemptStep
  | .reply kind tag a => s.replyStep kind tag a
  | .ackExpired => s.ackExpiredStep
  | .doneExpired => s.doneExpiredStep
  | .presence p missing => s.presenceStep p missing
  | .aligned => s.wafersAligned
  | .reviewing => s.reviewingStep
  | .visited => s.visitedStep
  | .clearMember w => s.clearMembership w
  | .clearNodes k host => s.clearStep k host
  | .learn x y z => s.learnStep x y z
  | .focusEnd outcome detail => s.focusEndStep outcome detail
  | .focusRefused kind => s.focusRefusedStep kind
  | .focusAbort tell => s.focusAbortStep tell
  | .focusResult kind outcome figures => s.focusResultStep kind outcome figures
  | .engineChoice => s.engineChoiceStep
  | .viewPost => s.postView
  | .queryPost pred => s.postQuery pred
  | .checkEnd => s.checkEnded
  | .departTransform _ => s.departTransformStep
  | .departFocus => s.departFocusStep
  | .departureEnd => s
  | .buildRecord k => s.buildStep k
  | .clearImaged => s.clearImaged
  | .retire d cause => s.retireStep d cause
  | .activate d x y => s.activateStep d x y
  | .failAttempt outcome => s.failStep outcome
  | .verdict code d cls => s.verdictStep code d cls
  | .rangeReturn d => s.rangeReturnStep d
  | .rangeRetire d => s.rangeRetireStep d
  | .select => s.selectStep
  | .seqAbort fault => s.abortNow fault
  | .probeEnd outcome a => s.probeEndStep outcome a
  | .resolveEnd report => s.resolveEndStep report
  | .move c => s.moveStep c
  | .fillShadow r => s.fillShadow r
  | .discardShadow => s.discardShadow
  | .askShadow d => s.askShadowStep d
  | .departMotion => s.departMotionStep
  | .trigger current => s.triggerStep current
  | .count i w counted => s.countAttr i w counted
  | .meanCorrection c w counted => s.meanStep c w counted
  | .maxCorrection c w counted => s.maxStep c w counted
  | .histogram cls counted => s.histStep cls counted
  | .lotJoin => s.lotJoin
  | .zeroWafer i => s.zeroWafer i
  | .openAttr i => s.openAttr i
  | .openHist k => s.openHist k
  | .openState => s.openState
  | .lotReport => s.lotReportStep
  | .stall => s.countStall
  | .posting k => s.postingStep k

/-! ### The words of a step -/

/-- The bits of a word that an operation has changed: at once, as it was made, or by its step (log 3). -/
def changedBits (op : StepOp) (s t : State) (w : WordRef) : Word :=
  op.unshown.foldl (fun b c => if c.word = w then b ||| c.bits else b) (hWord s w ^^^ hWord t w)

/-- A later step that is taken first shows the bits that it has changed: an earlier step still waiting no longer keeps
them back (R17, log 12). -/
def State.supersede (op : StepOp) (s t : State) : State :=
  let hide (c : Unshown) : Unshown :=
    if c.word ∈ t.named then { c with bits := c.bits &&& ~~~ changedBits op s t c.word } else c
  let hideIn : StepOp → StepOp
    | .publish cs => .publish (cs.map hide)
    | .departTransform cs => .departTransform (cs.map hide)
    | o => o
  { t with waiting := t.waiting.map (·.map hideIn) }

/-- An adoption step is still untaken; behind it every later step that needs an entry waits (R38). -/
def adopting (s : State) : Bool := s.waiting.flatten.any fun op => match op with | .adoption _ => true | _ => false

/-- The lines of work whose operations keep their order (log 12). -/
inductive OrderedWork where
  /-- the judgements of coefficient writes, in the order of the writes, and the departure's step of the load-cycle
  position, which stands between the writes before it and those after it (R108, R122) -/
  | loadCycle
  /-- the judgements of consumer writes, in the order of the writes (R201) -/
  | consumer
  /-- the motion unit's move record, targets, trigger and requests (R85, R90 to R96, R101) -/
  | stage
  /-- the endings of the revisit in hand, and the requests that could end it (R163, R174, R175, R177) -/
  | revisit
  /-- the transfers and what completes as one does: send attempts, replies, expiries, declared loads and departures
  (R55, R64, R70) -/
  | transfers
  deriving DecidableEq, Repr

/-- The line of work of an operation that keeps its order. -/
def StepOp.orderedWork : StepOp → Option OrderedWork
  | .loadCycle _ _ => some .loadCycle
  | .departTransform _ => some .loadCycle
  | .consumer _ _ => some .consumer
  | .move _ => some .stage
  | .fillShadow _ => some .stage
  | .discardShadow => some .stage
  | .askShadow _ => some .stage
  | .departMotion => some .stage
  | .trigger _ => some .stage
  | .failAttempt _ => some .revisit
  | .verdict _ _ _ => some .revisit
  | .seqAbort _ => some .revisit
  | .declaredLoad _ => some .transfers
  | .declaredDeparture _ => some .transfers
  | .sendAttempt => some .transfers
  | .reply _ _ _ => some .transfers
  | .ackExpired => some .transfers
  | .doneExpired => some .transfers
  | .request w _ =>
    if w == stageControl then some .stage
    else if w == seqControl || w == verdictWord then some .revisit
    else none
  | _ => none

/-- A step is waiting (R18). -/
def someWaits (s : State) : Bool := !s.waiting.flatten.isEmpty

/-- An earlier operation of the same line of work waits, and the operation keeps its place behind it (R18, log 12). The
completion of a declared departure's notice follows whatever waits as the notice is made, its steps among it (R55). -/
def keepsOrder (op : StepOp) (s : State) : Bool :=
  match op with
  | .departureEnd => someWaits s
  | _ => op.orderedWork.isSome && s.waiting.flatten.any fun o => o.orderedWork == op.orderedWork

/-- A step made while another waits is taken at once if all its words have entries (R17, R18, R38, log 12). -/
def jumps (op : StepOp) (s : State) (es : List (Nat × Word)) : Bool :=
  entriesNeeded s.queue es == 0 && (es.isEmpty || !adopting s) && !keepsOrder op s

/-! ### Taking steps -/

/-- A step is taken if the queue has the free entries that it needs; behind a waiting step, if it needs none (R17,
R18). -/
def tryStep (behind : Bool) (op : StepOp) (s : State) : Option State :=
  let t := runOp op { s with named := [], sequel := [] }
  let u := if behind then State.supersede op s t else t
  let es := wordEntries u u.named
  if fits s.queue es && (!behind || jumps op s es) then
    some { u with queue := putEntries s.queue es, named := [] }
  else none

/-- The steps with which an operation goes on had begun to wait with the step in hand, and keep its place: the adoption
steps, and the dispatch step of a probe's end (R38, R181). -/
def keepsPlace : StepOp → Bool
  | .adoption _ => true
  | .probeEnd _ _ => true
  | .focusResult _ _ _ => true
  | _ => false

/-- A task joins a list of tasks at its head, unless no step of it is left. -/
def putFirst (k : Task) (ks : List Task) : List Task := if k.isEmpty then ks else k :: ks

/-- The steps that have been made begin to wait, in their order (R18). -/
def State.makeWait (s : State) : State := { s with waiting := s.waiting ++ s.made, made := [] }

/-- What follows a step of the first task made: its task's own steps, or, where the operation goes on, those with the
rest behind what has been made meanwhile. -/
def State.proceed (op : StepOp) (s : State) : State :=
  let rest := s.made.headD []
  let more := s.made.tail
  if s.sequel.isEmpty || keepsPlace op then { s with made := putFirst (s.sequel ++ rest) more, sequel := [] }
  else { s with made := more ++ [s.sequel ++ rest], sequel := [] }

/-- The steps made in the event in progress are taken in their order; one that cannot be taken begins to wait, with what
its operation has to come (R18). -/
def flush : Nat → State → State
  | 0, s => s.makeWait
  | n + 1, s =>
    match s.made with
    | [] => s
    | [] :: more => flush n { s with made := more }
    | (op :: rest) :: more =>
      match tryStep (someWaits s) op { s with made := rest :: more } with
      | some t => flush n (t.proceed op)
      | none => flush n { s with made := more, waiting := s.waiting ++ [op :: rest] }

/-- The end of an event; a task of which no step is left is gone. -/
def State.settle (s : State) : State :=
  let t := flush 256 s
  { t with waiting := t.waiting.filter fun k => !k.isEmpty }

/-- After the first waiting step, those of its own task that need no free entry follow in the same event. -/
def follow : Nat → State → State
  | 0, s => s
  | n + 1, s =>
    match s.waiting with
    | (op :: rest) :: others =>
      match tryStep true op { s with waiting := rest :: others } with
      | some t => if t.sequel.isEmpty then follow n t else s
      | none => s
    | _ => s

/-- The first of the waiting steps is taken if it fits (R18). Where the steps of one operation begin to wait is the model's
choice (log 12): those made together in one task (`State.emits`: a RESOLVE's, a close's, an OPEN's, an unseal's) keep the
place of its first, as if they had begun to wait with it; a step that an operation makes only as it goes on (`State.goOn`:
of a MAP, an order build, a CLEAR_MAP, a load) begins to wait behind those that wait already, unless it keeps its place. -/
def State.takeWaiting (s : State) : State :=
  match s.waiting with
  | [] => s
  | [] :: others => { s with waiting := others }
  | (op :: rest) :: others =>
    match tryStep false op { s with waiting := rest :: others } with
    | none => s
    | some t =>
      let next := t.sequel ++ t.waiting.headD []
      let others1 := t.waiting.tail
      if t.sequel.isEmpty then (follow 256 t).settle
      else if keepsPlace op then State.settle { t with waiting := next :: others1, sequel := [] }
      else State.settle { t with waiting := others1, made := t.made ++ [next], sequel := [] }

/-- A command's effect, unless RESET_N is asserted: what it does, and the steps that it makes. -/
def State.act (f : State → State) (s : State) : Host.Outcome State Fault Refusal :=
  .next (if s.inReset then s else (f s).settle)

end Sys2Proof.Machine
end

