-- ==== Sys2Proof/Machine/Through.lean ====
section
/-! DEFINITION. The through path: how the host port takes a word of each class, and forwards an access outside every
window (chapter 1). -/

namespace Sys2Proof.Machine

/-! ### The host port -/

/-- The host port can take a word that does not need the memory port (R1, R11, R22). -/
def portOpen (s : State) : Bool := s.planU.standing != .starting && !s.hostBusy

/-- The host port can take a word that needs the memory port: the arbiter prefers write-backs from 12 entries on, and
throughout the adoption steps (R21, R38). -/
def memoryOpen (s : State) : Bool := portOpen s && decide (s.queue.length < Config.queueHigh) && !adopting s

/-- A load-cycle step of an earlier coefficient write still waits (R108). -/
def loadCycleWaits (s : State) : Bool :=
  s.waiting.flatten.any fun op => match op with | .loadCycle _ _ => true | _ => false

/-- The host access that waits contends for the memory port, and the arbiter would grant it (R10, R21, R22, log 28). -/
def hostPreferred (s : State) : Bool :=
  memoryOpen s && match s.hostWaits with
    | none => false
    | some .memory => true
    | some (.hRead a) => (entryFor s.queue a).isNone
    | some (.hLook _) => true
    | some .loadCycle => !loadCycleWaits s

/-- The host sees its access wait, for the memory port too where it needs that (R21, R22, log 6, log 28). -/
def State.turnAway (w : Option HostWait) (s : State) : State := { s with hReady := false, hostWaits := w }

/-- A word of a host access is finished; with the last one a new window map comes into force (R1, R4). -/
def State.finishWord (more : Bool) (s : State) : State :=
  { s with hReady := true, hostMore := more, hostWaits := none, map := if more then s.map else s.plan }

/-- The address of a word that lies in a window of the map in force. -/
def hostAddr (s : State) (w : WordRef) : Option Nat :=
  (wordAddr s.planBase s.map w).filter fun a => decodeAddr s.planBase s.map a == some w

/-! ### P words -/

/-- A host write to a P word of a defect record: copied, or SEALED_WRITE is reported (R145, R151). -/
def State.copyRecord (d k : Nat) (be : BitVec 4) (v : Word) (s : State) : State :=
  if sealedRecord s d then s.event .sealedWrite
  else
    let r := s.defect d
    s.setDefect d
      (match k with
        | 0 => { r with x := mergeLanes be r.x v }
        | 1 => { r with y := mergeLanes be r.y v }
        | 2 => { r with info := mergeLanes be r.info v }
        | _ => { r with tag := mergeLanes be r.tag v })

/-- The handling unit's copies (R41, R45, R60). -/
def State.copyHandling (o : Nat) (be : BitVec 4) (v : Word) (s : State) : State :=
  if o < 0x320 then
    (if o % 16 = 0 then s.setWafer (o / 16) { s.wafer (o / 16) with id := mergeLanes be (s.wafer (o / 16)).id v } else s)
  else if o < 0x440 then
    let k := (o - 0x400) / 16
    let t := s.slot k
    if o % 16 = 0 then s.setSlot k { t with waferCopy := mergeLanes be t.waferCopy v }
    else s.setSlot k { t with destCopy := mergeLanes be t.destCopy v }
  else if o = 0x444 then s.onHand fun h => { h with declareWord := mergeLanes be h.declareWord v }
  else s.onHand fun h => { h with mapPattern := mergeLanes be h.mapPattern v }

/-- The copies of the stage window; a write of a coefficient word also makes its load-cycle step (R86, R105, R107,
R108). -/
def State.copyStage (o : Nat) (be : BitVec 4) (v : Word) (s : State) : State :=
  if o = 0x010 then s.onMotion fun m => { m with presetX := mergeLanes be m.presetX v }
  else if o = 0x014 then s.onMotion fun m => { m with presetY := mergeLanes be m.presetY v }
  else
    let k := (o - 0x040) / 4
    (s.onXform fun x => { x with copies := x.copies.set k (mergeLanes be (x.copies.get 0 k) v) }).emit
      (.loadCycle k (be == 15))

/-- The copies of the focus window (R140, R142). -/
def State.copyFocus (o : Nat) (be : BitVec 4) (v : Word) (s : State) : State :=
  s.onFocus fun u =>
    if o = 0x910 then { u with seedIndex := mergeLanes be u.seedIndex v }
    else if o = 0x914 then { u with seedValue := mergeLanes be u.seedValue v }
    else if o = 0x934 then { u with queryX := mergeLanes be u.queryX v }
    else { u with queryY := mergeLanes be u.queryY v }

/-- The copies of the defect window (R145, R156, R157, R180). -/
def State.copyDefect (o : Nat) (be : BitVec 4) (v : Word) (s : State) : State :=
  if o = 0x020 then s.onSeq fun q => { q with probeX := mergeLanes be q.probeX v }
  else if o = 0x024 then s.onSeq fun q => { q with probeY := mergeLanes be q.probeY v }
  else if o < 0x080 then
    let c := (o - 0x040) / 4
    { s with defects := { s.defects with quotas := s.defects.quotas.set c (mergeLanes be (s.defects.quotas.get 0 c) v) } }
  else if o = 0x080 then { s with defects := { s.defects with census := mergeLanes be s.defects.census v } }
  else s.copyRecord ((o - 0x1000) / 32) (o % 32 / 4) be v

/-- The copies of the lot window (R186, R194, R195, R203). -/
def State.copyLot (o : Nat) (be : BitVec 4) (v : Word) (s : State) : State :=
  let l := s.lot
  if o = 0x000 then { s with lot := { l with tagCopy := mergeLanes be l.tagCopy v } }
  else if o = 0x004 then { s with lot := { l with expectedCopy := mergeLanes be l.expectedCopy v } }
  else if o = 0x008 then { s with lot := { l with holdCopy := mergeLanes be l.holdCopy v } }
  else if o = 0x020 then { s with report := { s.report with mask := mergeLanes be s.report.mask v } }
  else
    let i := (o - 0x100) / 16
    s.setAttr i { s.attr i with threshold := mergeLanes be (s.attr i).threshold v }

/-- The owning block's copy of a P word takes the host's bytes in the enabled lanes, with the further effects that
chapters 6, 8 and 11 state (R6). -/
def State.copyWord (w : WordRef) (be : BitVec 4) (v : Word) (s : State) : State :=
  match w.win with
  | .plan => s.onPlan fun u => { u with copies := u.copies.set (w.off / 4) (mergeLanes be (u.copies.get 0 (w.off / 4)) v) }
  | .handling => s.copyHandling w.off be v
  | .stage => s.copyStage w.off be v
  | .focus => s.copyFocus w.off be v
  | .defect => s.copyDefect w.off be v
  | .lot => s.copyLot w.off be v
  | .ring => s.emit (.consumer be v)

/-! ### Writes -/

/-- The word is the alignment commit word and a load-cycle step of an earlier coefficient write still waits (R22,
R108). -/
def awaitsLoadCycle (s : State) (w : WordRef) : Bool := w == alignmentCommitWord && loadCycleWaits s

/-- A host write to a word is finished without the memory port: without a byte enable (R3), or to a record of the ring
(R9). -/
def writeNeedsNone (s : State) (w : WordRef) (be : BitVec 4) : Bool :=
  be == 0 || (isRingRecord w && wordClass s.map w == .h)

/-- What a host write that waits needs of the memory port (R3, R9, R22). -/
def writeWait (s : State) (w : WordRef) (be : BitVec 4) : Option HostWait :=
  if writeNeedsNone s w be then none
  else if w == alignmentCommitWord && be == 15 then some .loadCycle
  else some .memory

/-- What a host read whose turn has not come needs of the memory port (R10, R13). -/
def readWait (s : State) (w : WordRef) (a : Nat) : Option HostWait :=
  match wordClass s.map w with
  | .s => none
  | .h => some (.hRead a)
  | _ => some .memory

/-- A full-word write to a T word: the request is handed to its block once memory has the host's data (R11). -/
def State.hostRequest (w : WordRef) (a : Nat) (d : Word) (more : Bool) (s : State) : State :=
  if awaitsLoadCycle s w then s.turnAway (some .loadCycle)
  else State.emit (.request w d)
    { s.memWrite a 15 d with hostBusy := true, hostMore := more, hostWaits := none, hReady := false }

/-- A host write to a word of a window, by its class (R3, R5, R6, R8, R9, R11, R12, R13). -/
def State.hostWordWrite (w : WordRef) (a : Nat) (be : BitVec 4) (d : Word) (more : Bool) (s : State) : State :=
  if !portOpen s then s.turnAway (writeWait s w be)
  else if be = 0 then s.finishWord more
  else if isRingRecord w && wordClass s.map w == .h then (s.event .ownedWrite).finishWord more
  else if !memoryOpen s then s.turnAway (writeWait s w be)
  else match wordClass s.map w with
    | .spare => (s.memWrite a be d).finishWord more
    | .p => ((s.memWrite a be d).copyWord w be d).finishWord more
    | .h => ((s.memWrite a be (shownWord s w)).event .ownedWrite).finishWord more
    | .t =>
      if be = 15 then s.hostRequest w a d more
      else ((s.memWrite a be d).event .partialTrigger).finishWord more
    | .s =>
      let s1 := s.memWrite a be d
      (if w == eventWord then s1.clearEvents be d else s1).finishWord more

/-- A host write to an address of a window; one outside every window is no word of a window and has no effect here
(log 18). -/
def State.hostWrite (addr : Addr) (be : BitVec 4) (d : Word) (more : Bool) (s : State) : State :=
  let a := wordAligned addr.toNat
  match decodeAddr s.planBase s.map a with
  | none => s
  | some w => s.hostWordWrite w a be d more

/-- A host write to a word that the command names; while its window is not in force there is no such word (log 21). -/
def State.hostNamedWrite (w : WordRef) (be : BitVec 4) (d : Word) (more : Bool) (s : State) : State :=
  match hostAddr s w with
  | none => s
  | some a => s.hostWordWrite w a be d more

/-! ### Reads -/

/-- A posted-result word whose request is outstanding (R15). -/
def earlyWord (s : State) (w : WordRef) : Bool :=
  (decide (w ∈ viewResults) && s.xform.view.isSome) || (decide (w ∈ queryResults) && s.focus.query.isSome)

/-- The host is given read data, and the word is finished (R1). -/
def State.answer (v : Word) (more : Bool) (s : State) : State := ({ s with hData := [v] }).finishWord more

/-- The memory port reads a word for the host (R2). -/
def State.memRead (a : Nat) (s : State) : State :=
  { s with mAccess := some { addr := a, write := false, words := [(15, readWordAt s.mem a)] } }

/-- A read of a posted-result word while its request is outstanding reports EARLY_READ (R15). -/
def State.noteEarly (w : WordRef) (s : State) : State := if earlyWord s w then s.event .earlyRead else s

/-- A read of the H word at `a` has found no entry at its turn and contends for the memory port; it looks again only when
it is granted the port (R10). -/
def looksAtGrant (s : State) (a : Nat) : Bool := s.hostWaits == some (.hLook a)

/-- A host read of a word of a window, by its class (R6, R10, R11, R13, R15). -/
def State.hostWordRead (w : WordRef) (a : Nat) (more : Bool) (s : State) : State :=
  if !portOpen s then s.turnAway (readWait s w a)
  else match wordClass s.map w with
    | .s => s.answer (sWord s w) more
    | .h =>
      if looksAtGrant s a && !memoryOpen s then s.turnAway (some (.hLook a))
      else match entryFor s.queue a with
        | some v => (s.noteEarly w).answer v more
        | none =>
          if memoryOpen s then ((s.memRead a).noteEarly w).answer (readWordAt s.mem a) more
          else s.turnAway (some (.hLook a))
    | _ => if memoryOpen s then (s.memRead a).answer (readWordAt s.mem a) more else s.turnAway (some .memory)

/-- A host read of an address of a window (R2). -/
def State.hostRead (addr : Addr) (more : Bool) (s : State) : State :=
  let a := wordAligned addr.toNat
  match decodeAddr s.planBase s.map a with
  | none => s
  | some w => s.hostWordRead w a more

/-! ### Forwarded accesses -/

/-- The words of a burst that lie in the 32-byte block of its first word (R1). -/
def inFirstBlock (a : Nat) : Nat := 8 - a % 32 / 4

/-- The memory writes of a forwarded access. -/
def writeWords (m : List Host.Cell) (a : Nat) : List (BitVec 4 × Word) → List Host.Cell
  | [] => m
  | (be, d) :: ws => writeWords (writeWordAt m a be d) (a + 4) ws

/-- The words that memory returns to a forwarded read of `n` words. -/
def readWords (m : List Host.Cell) (a n : Nat) : List Word := (List.range n).map fun i => readWordAt m (a + 4 * i)

/-- The words of a host access are finished without the memory port: writes without a byte enable (R3). -/
def noEnables (write : Bool) (words : List (BitVec 4 × Word)) : Bool := write && words.all fun e => e.1 == 0

/-- One access outside every window: forwarded with its length, enables and data (R2); of a write none of whose words has
a byte enable nothing is issued (R3). -/
def State.forwardPart (a : Nat) (write : Bool) (words : List (BitVec 4 × Word)) (s : State) : State :=
  if words.isEmpty || noEnables write words || (decodeAddr s.planBase s.map a).isSome then s
  else if write then
    { s with mem := writeWords s.mem a words, mAccess := some { addr := a, write := true, words := words } }
  else
    let data := readWords s.mem a words.length
    { s with hData := s.hData ++ data,
             mAccess := some { addr := a, write := false, words := (words.map (·.1)).zip data } }

/-- A host access outside every window, split where a burst runs past its 32-byte block (R1, R2); addresses have 28
bits, so a burst past the last block goes on at address 0 (log 22). A write none of whose words has a byte enable is
finished at once (R3); one some of whose words have an enable is one access with its whole length (R2, log 18). -/
def State.forward (addr : Addr) (write : Bool) (words : List (BitVec 4 × Word)) (more : Bool) (s : State) : State :=
  let a := wordAligned addr.toNat
  let n := inFirstBlock a
  if !portOpen s || (!noEnables write words && !memoryOpen s) then
    s.turnAway (if noEnables write words then none else some .memory)
  else
    let s1 := if write then s else { s with hData := [] }
    let s2 := s1.forwardPart a write (words.take n)
    (s2.forwardPart ((a + 4 * n) % 2 ^ 28) write (words.drop n)).finishWord more

end Sys2Proof.Machine
end

