-- ==== Sys2Proof/Machine/PlanCommands.lean ====
section
/-! DEFINITION. The commands of reset, of the plan unit and of the write-back queue. -/

namespace Sys2Proof.Machine

/-- RESET_ASSERT (R24). -/
def execResetAssert (s : State) : Host.Outcome State Fault Refusal := .next s.assertReset

/-- RESET_RELEASE (R32). -/
def execResetRelease (pins : Pins) (s : State) : Host.Outcome State Fault Refusal := .next (s.releaseReset pins)

/-- PLAN_READ: granted while the queue is empty and no host access waits (R21, R26, log 28). -/
def execPlanRead (s : State) : Host.Outcome State Fault Refusal :=
  s.act fun s => match s.planU.work with
    | .reading k => if s.queue.isEmpty && !hostPreferred s then s.planReadDone k else s
    | _ => s

/-- WRITEBACK_DRAIN: the head entry leaves the queue and is written as a full word (R19); the arbiter prefers a host
access that waits and can be granted the port (R21, log 28). -/
def execWritebackDrain (s : State) : Host.Outcome State Fault Refusal :=
  s.act fun s => match s.queue with
    | [] => s
    | (a, v) :: q => if hostPreferred s then s else { s with queue := q }.memWrite a 15 v

/-- WAITING_STEP_TAKEN (R18). -/
def execWaitingStepTaken (s : State) : Host.Outcome State Fault Refusal := s.act State.takeWaiting

/-- QUEUE_EMPTY_RELEASE: the first drain of a commit is over and the re-read begins (R20, R36). -/
def execQueueEmptyRelease (s : State) : Host.Outcome State Fault Refusal :=
  s.act fun s =>
    if s.planU.work == .draining && queueEmpty s then s.onPlan fun u => { u with work := .reading 0 } else s

/-- ADOPTION_MOMENT (R36). -/
def execAdoptionMoment (s : State) : Host.Outcome State Fault Refusal := s.act State.adoptionMoment

/-- COMMIT (R35). -/
def execCommitPlan (more : Bool) (s : State) : Host.Outcome State Fault Refusal :=
  s.act (State.hostNamedWrite commitWord 15 Config.commitCode more)

end Sys2Proof.Machine
end

