-- ==== Sys2Proof/Machine/HostCommands.lean ====
section
/-! DEFINITION. The commands of the host port that name a word by its address (chapter 1). -/

namespace Sys2Proof.Machine

/-- FORWARDED_ACCESS (R2). -/
def execForwardedAccess (addr : Addr) (write : Bool) (words : List (BitVec 4 × Word)) (more : Bool) (s : State) :
    Host.Outcome State Fault Refusal :=
  s.act (State.forward addr write words more)

/-- HOST_P_WRITE (R6). -/
def execHostPWrite (addr : Addr) (be : BitVec 4) (d : Word) (more : Bool) (s : State) :
    Host.Outcome State Fault Refusal :=
  s.act (State.hostWrite addr be d more)

/-- H_WORD_WRITE (R8). -/
def execHWordWrite (addr : Addr) (be : BitVec 4) (d : Word) (more : Bool) (s : State) :
    Host.Outcome State Fault Refusal :=
  s.act (State.hostWrite addr be d more)

/-- RING_RECORD_WRITE (R9). -/
def execRingRecordWrite (addr : Addr) (be : BitVec 4) (d : Word) (more : Bool) (s : State) :
    Host.Outcome State Fault Refusal :=
  s.act (State.hostWrite addr be d more)

/-- POSTED_RESULT_READ (R15). -/
def execPostedResultRead (addr : Addr) (more : Bool) (s : State) : Host.Outcome State Fault Refusal :=
  s.act (State.hostRead addr more)

/-- PARTIAL_TRIGGER (R12). -/
def execPartialTrigger (addr : Addr) (be : BitVec 4) (d : Word) (more : Bool) (s : State) :
    Host.Outcome State Fault Refusal :=
  s.act (State.hostWrite addr be d more)

/-- S_WORD_WRITE (R13). -/
def execSWordWrite (addr : Addr) (be : BitVec 4) (d : Word) (more : Bool) (s : State) :
    Host.Outcome State Fault Refusal :=
  s.act (State.hostWrite addr be d more)

/-- UNKNOWN_REQUEST: a full-word write, whose value its block refuses (R11). -/
def execUnknownRequest (addr : Addr) (d : Word) (more : Bool) (s : State) : Host.Outcome State Fault Refusal :=
  s.act (State.hostWrite addr 15 d more)

end Sys2Proof.Machine
end

