-- ==== Sys2Proof/Machine/HandlingCommands.lean ====
section
/-! DEFINITION. The commands of the handling unit (chapters 3 and 4). -/

namespace Sys2Proof.Machine

/-- A word with the fields under `mask` replaced; the part ignores the bits outside the fields (R206). -/
def withFields (other mask v : Word) : Word := (other &&& ~~~mask) ||| v

/-- The handling control word of a request code (section 12.4). -/
def handlingRequest (other : Word) (code : Nat) : Word := withFields other 0xF (field 0 4 code)

/-- The carrier field of MAP (section 12.4). -/
def carrierCode : Carrier → Nat
  | .a => 1
  | .b => 2

/-- MAP (R48). -/
def execMapCarrier (c : Carrier) (other : Word) (more : Bool) (s : State) : Host.Outcome State Fault Refusal :=
  s.act (State.hostNamedWrite handlingControl 15 (withFields other 0x30F (field 0 4 1 + field 8 2 (carrierCode c))) more)

/-- DECLARE (R54). -/
def execDeclare (other : Word) (more : Bool) (s : State) : Host.Outcome State Fault Refusal :=
  s.act (State.hostNamedWrite handlingControl 15 (handlingRequest other 2) more)

/-- DECLARE_EMPTY (R56). -/
def execDeclareEmpty (other : Word) (more : Bool) (s : State) : Host.Outcome State Fault Refusal :=
  s.act (State.hostNamedWrite handlingControl 15 (handlingRequest other 3) more)

/-- RESUME_HANDLING (R76). -/
def execResumeHandling (other : Word) (more : Bool) (s : State) : Host.Outcome State Fault Refusal :=
  s.act (State.hostNamedWrite handlingControl 15 (handlingRequest other 4) more)

/-- CANCEL (R77). -/
def execCancel (slot : BitVec 2) (other : Word) (more : Bool) (s : State) : Host.Outcome State Fault Refusal :=
  s.act (State.hostNamedWrite handlingControl 15 (withFields other 0x300F (field 0 4 5 + field 12 2 slot.toNat)) more)

/-- GO (R61). -/
def execGo (slot : BitVec 2) (more : Bool) (s : State) : Host.Outcome State Fault Refusal :=
  s.act (State.hostNamedWrite (goWord slot.toNat) 15 1 more)

/-- SEND_ATTEMPT: made while the conditions of sending hold (R64, R65). -/
def execSendAttempt (s : State) : Host.Outcome State Fault Refusal :=
  s.act fun s => if canAttempt s then s.emit .sendAttempt else s

/-- ROBOT_ACK: an ACK frame is received (R69, R70, R71). -/
def execRobotAck (tag a b : Byte) (s : State) : Host.Outcome State Fault Refusal :=
  s.act (State.receiveFrame 2 tag a b (byteSum [2, tag, a, b]))

/-- ROBOT_NAK: a NAK frame is received (R69, R70, R72). -/
def execRobotNak (tag a b : Byte) (s : State) : Host.Outcome State Fault Refusal :=
  s.act (State.receiveFrame 3 tag a b (byteSum [3, tag, a, b]))

/-- ROBOT_DONE: a DONE frame is received (R69, R70, R73). -/
def execRobotDone (tag a b : Byte) (s : State) : Host.Outcome State Fault Refusal :=
  s.act (State.receiveFrame 4 tag a b (byteSum [4, tag, a, b]))

/-- ROBOT_FAULT: a FAULT frame is received (R69, R70, R74). -/
def execRobotFault (tag a b : Byte) (s : State) : Host.Outcome State Fault Refusal :=
  s.act (State.receiveFrame 5 tag a b (byteSum [5, tag, a, b]))

/-- ROBOT_BAD_FRAME: a byte, a stop-bit error or a whole frame that the receiver discards (R69). -/
def execRobotBadFrame (bad : BadRobotInput) (s : State) : Host.Outcome State Fault Refusal :=
  s.act fun s => match bad with
    | .byte b => s.receiveByte b
    | .stopBitError => s.abandonFrame
    | .frame type tag a b check => s.receiveFrame type tag a b check

/-- ROBOT_BYTE_RECEIVED (R69). -/
def execRobotByteReceived (b : Byte) (s : State) : Host.Outcome State Fault Refusal := s.act (State.receiveByte b)

/-- ROBOT_FRAME_TIMEOUT: 5 ms after the last byte in FRAME (R69). -/
def execRobotFrameTimeout (s : State) : Host.Outcome State Fault Refusal :=
  s.act fun s => match s.hand.rx with
    | .frame _ last => (s.clockTo (last + Config.robotGapUs)).abandonFrame
    | .hunt => s

/-- ACK_TIMEOUT: the ACK timer expires (R71). -/
def execAckTimeout (s : State) : Host.Outcome State Fault Refusal :=
  s.act fun s => match s.hand.ackTimer with
    | some t =>
      ((s.clockTo (t + 1000 * (s.plan.map (·.robotAckTimeout)).getD 0)).onHand fun h =>
        { h with ackTimer := none }).emit .ackExpired
    | none => s

/-- DONE_TIMEOUT: the DONE timer expires (R74). -/
def execDoneTimeout (s : State) : Host.Outcome State Fault Refusal :=
  s.act fun s => match s.hand.doneTimer with
    | some t =>
      ((s.clockTo (t + 1000 * (s.plan.map (·.robotDoneTimeout)).getD 0)).onHand fun h =>
        { h with doneTimer := none }).emit .doneExpired
    | none => s

/-- PRESENCE_CHANGE: a sensor input changes (R49, R50). -/
def execPresenceChange (sensor : Fin 5) (level : Bool) (s : State) : Host.Outcome State Fault Refusal :=
  s.act fun s => State.refreshPresence (s.onHand fun h =>
    { h with pres := if level then h.pres ||| BitVec.ofNat 5 (2 ^ sensor.val)
                     else h.pres &&& ~~~ BitVec.ofNat 5 (2 ^ sensor.val) })

/-- DEBOUNCE_EXPIRY: a mismatch has persisted (R50, R51). -/
def execDebounceExpiry (sensor : Fin 5) (s : State) : Host.Outcome State Fault Refusal :=
  s.act fun s => match s.debounceTimer sensor.val with
    | some t =>
      ((s.clockTo (t + debounceUs s)).setDebounce sensor.val .elapsed).emit
        (.presence (50 + sensor.val) (s.posn (50 + sensor.val)).occupant.isSome)
    | none => s

end Sys2Proof.Machine
end

