-- ==== Sys2Proof/Machine/MotionCommands.lean ====
section
/-! DEFINITION. The commands of the motion unit (chapter 5). -/

namespace Sys2Proof.Machine

/-- ENCODER_TRANSITION: an axis's phase changes (R82, R83, R91). -/
def execEncoderTransition (axis : Axis) (phase : BitVec 2) (s : State) : Host.Outcome State Fault Refusal :=
  s.act fun s =>
    let s1 := s.encoderTransition axis phase
    if ((s.motion.encoder axis).transition phase).2 then s1.encoderNotice else s1

/-- PRESET (R86). -/
def execPreset (more : Bool) (s : State) : Host.Outcome State Fault Refusal :=
  s.act (State.hostNamedWrite stageControl 15 1 more)

/-- MOTION_ENABLE (R99). -/
def execMotionEnable (more : Bool) (s : State) : Host.Outcome State Fault Refusal :=
  s.act (State.hostNamedWrite stageControl 15 2 more)

/-- MOTION_DISABLE (R100). -/
def execMotionDisable (more : Bool) (s : State) : Host.Outcome State Fault Refusal :=
  s.act (State.hostNamedWrite stageControl 15 3 more)

/-- SETTLE_EXPIRY: the settle timer reaches the settle time (R91). -/
def execSettleExpiry (s : State) : Host.Outcome State Fault Refusal :=
  s.act fun s => match s.motion.settleTimer with
    | some t =>
      if expectedMove s == .settling then (s.clockTo (t + settleTime s)).emit (.move (.settled t)) else s
    | none => s

/-- MOVE_TIMEOUT: the move timer reaches the move timeout (R92). -/
def execMoveTimeout (s : State) : Host.Outcome State Fault Refusal :=
  s.act fun s => match s.motion.moveTimer with
    | some t =>
      if moveGoesOn s then
        (s.clockTo (t + 1000 * (s.plan.map (·.moveTimeout)).getD 0)).emit (.move (.timedOut t))
      else s
    | none => s

/-- STAGE_FRAME_END: a MOVE frame that is held begins (R88). -/
def execStageFrameEnd (s : State) : Host.Outcome State Fault Refusal :=
  s.act fun s => match s.motion.frame with
    | some f =>
      let s1 := (s.clockTo (f.began + Config.stageFrameUs)).onMotion fun m => { m with frame := none }
      if s.motion.heldMove.isSome then s1.emit (.move .frame) else s1
    | none => s

/-- INTERLOCK_ASSERT (R97). -/
def execInterlockAssert (s : State) : Host.Outcome State Fault Refusal :=
  s.act fun s =>
    if s.motion.interlock then s
    else ((s.takeAssert.makeFault .interlock 0 0).abortNotice false).abortFocus true

/-- INTERLOCK_RELEASE (R98). -/
def execInterlockRelease (s : State) : Host.Outcome State Fault Refusal :=
  s.act fun s =>
    if s.motion.interlock then
      (s.takeRelease.makeFault .interlock 0 1).onHand fun h => { h with headWaits := false }
    else s

/-- IMG_TRIG_PULSE_END: a trigger request that waited for it is judged (R101). -/
def execImgTrigPulseEnd (s : State) : Host.Outcome State Fault Refusal :=
  s.act fun s => match s.motion.trigPulse with
    | some t =>
      let s1 := (s.clockTo (t + Config.triggerPulseUs)).onMotion fun m => { m with trigPulse := none, trigWait := false }
      if s.motion.trigWait && s.seq.st == .running && s.seq.phase == .focus && s.focus.attempt.isNone then
        s1.requestTrigger
      else s1
    | none => s

end Sys2Proof.Machine
end

