-- ==== Sys2Proof/Machine/TransformCommands.lean ====
section
/-! DEFINITION. The commands of the transform unit (chapter 6). -/

namespace Sys2Proof.Machine

/-- COEFFICIENT_WRITE (R107). -/
def execCoefficientWrite (k : Fin 10) (be : BitVec 4) (d : Word) (more : Bool) (s : State) :
    Host.Outcome State Fault Refusal :=
  s.act (State.hostNamedWrite (coefficientWord k.val) be d more)

/-- ALIGNMENT_COMMIT (R109). -/
def execAlignmentCommit (more : Bool) (s : State) : Host.Outcome State Fault Refusal :=
  s.act (State.hostNamedWrite alignmentCommitWord 15 1 more)

/-- IDENTITY_CHECK_END (R111). -/
def execIdentityCheckEnd (s : State) : Host.Outcome State Fault Refusal :=
  s.act fun s => match s.xform.service with
    | some (.check _) => s.emit .checkEnd
    | _ => s

/-- VIEW_REQUEST (R117). -/
def execViewRequest (more : Bool) (s : State) : Host.Outcome State Fault Refusal :=
  s.act (State.hostNamedWrite viewRequestWord 15 1 more)

/-- INVERSE_DONE (R118). -/
def execInverseDone (s : State) : Host.Outcome State Fault Refusal := s.act State.inverseEnded

/-- FORWARD_DONE (R114). -/
def execForwardDone (s : State) : Host.Outcome State Fault Refusal := s.act State.forwardEnded

end Sys2Proof.Machine
end

