-- ==== Sys2Proof/Machine/FocusCommands.lean ====
section
/-! DEFINITION. The commands of the focus unit (chapter 7). -/

namespace Sys2Proof.Machine

/-- PREDICTION_DONE (R129). -/
def execPredictionDone (s : State) : Host.Outcome State Fault Refusal := s.act State.predictionDone

/-- ACTUATOR_FRAME_END (R133). -/
def execActuatorFrameEnd (s : State) : Host.Outcome State Fault Refusal :=
  s.act fun s => match s.focus.frame with
    | some f => (s.clockTo (f.began + Config.actuatorFrameUs)).actuatorFrameEnd
    | none => s

/-- FSETTLED_RISE (R133). -/
def execFsettledRise (s : State) : Host.Outcome State Fault Refusal := s.act State.fsettledRise

/-- HSAMPLE_PULSE_END (R133). -/
def execHsamplePulseEnd (s : State) : Host.Outcome State Fault Refusal :=
  s.act fun s => match s.focus.hsample with
    | some t => (s.clockTo (t + Config.hsamplePulseUs)).onFocus fun u => { u with hsample := none }
    | none => s

/-- HREADY_RISE (R133). -/
def execHreadyRise (s : State) : Host.Outcome State Fault Refusal := s.act State.hreadyRise

/-- HEIGHT_SAMPLE_READ (R135). -/
def execHeightSampleRead (e : BitVec 16) (s : State) : Host.Outcome State Fault Refusal := s.act (State.sampleRead e)

/-- FOCUS_SETTLE_TIMEOUT (R134). -/
def execFocusSettleTimeout (s : State) : Host.Outcome State Fault Refusal :=
  s.act fun s => match s.focus.settleTimer with
    | some t =>
      (s.clockTo (t + 1000 * (s.plan.map (·.focusSettleTimeout)).getD 0)).endAttempt .focusTimeout .settle
    | none => s

/-- SAMPLE_TIMEOUT (R134). -/
def execSampleTimeout (s : State) : Host.Outcome State Fault Refusal :=
  s.act fun s => match s.focus.sampleTimer with
    | some t => (s.clockTo (t + 1000 * (s.plan.map (·.sampleTimeout)).getD 0)).endAttempt .focusTimeout .sample
    | none => s

/-- SEED (R140). -/
def execSeed (more : Bool) (s : State) : Host.Outcome State Fault Refusal :=
  s.act (State.hostNamedWrite focusControl 15 1 more)

/-- CLEAR_NODE (R141). -/
def execClearNode (more : Bool) (s : State) : Host.Outcome State Fault Refusal :=
  s.act (State.hostNamedWrite focusControl 15 2 more)

/-- CLEAR_MAP (R141). -/
def execClearMap (more : Bool) (s : State) : Host.Outcome State Fault Refusal :=
  s.act (State.hostNamedWrite focusControl 15 3 more)

/-- QUERY (R142). -/
def execQuery (more : Bool) (s : State) : Host.Outcome State Fault Refusal :=
  s.act (State.hostNamedWrite queryTriggerWord 15 1 more)

end Sys2Proof.Machine
end

