-- ==== Sys2Proof/Machine/DefectCommands.lean ====
section
/-! DEFINITION. The commands of the defect list unit (chapter 8). -/

namespace Sys2Proof.Machine

/-- SEAL of N records (R147). -/
def execSealList (n : Word) (more : Bool) (s : State) : Host.Outcome State Fault Refusal :=
  s.act (State.hostNamedWrite sealWord 15 n more)

/-- ORDER_FORMED (R148). -/
def execOrderFormed (s : State) : Host.Outcome State Fault Refusal := s.act State.orderFormed

/-- UNSEAL: a seal value of 0 (R150). -/
def execUnsealList (more : Bool) (s : State) : Host.Outcome State Fault Refusal :=
  s.act (State.hostNamedWrite sealWord 15 0 more)

/-- SEALED_WRITE: a host write to words 0 to 3 of a record (R151). -/
def execSealedWrite (record : BitVec 12) (k : Fin 4) (be : BitVec 4) (d : Word) (more : Bool) (s : State) :
    Host.Outcome State Fault Refusal :=
  s.act (State.hostNamedWrite (recordWord record.toNat k.val) be d more)

/-- SKIP (R155). -/
def execSkipDefect (record : BitVec 12) (more : Bool) (s : State) : Host.Outcome State Fault Refusal :=
  s.act (State.hostNamedWrite (recordWord record.toNat 4) 15 1 more)

/-- UNSKIP (R155). -/
def execUnskipDefect (record : BitVec 12) (more : Bool) (s : State) : Host.Outcome State Fault Refusal :=
  s.act (State.hostNamedWrite (recordWord record.toNat 4) 15 2 more)

end Sys2Proof.Machine
end

