-- ==== Sys2Proof/Machine/SequencerCommands.lean ====
section
/-! DEFINITION. The commands of the revisit sequencer (chapter 9). -/

namespace Sys2Proof.Machine

/-- START (R164). -/
def execStart (more : Bool) (s : State) : Host.Outcome State Fault Refusal :=
  s.act (State.hostNamedWrite seqControl 15 1 more)

/-- PAUSE (R166). -/
def execPause (more : Bool) (s : State) : Host.Outcome State Fault Refusal :=
  s.act (State.hostNamedWrite seqControl 15 2 more)

/-- RESUME (R167). -/
def execResume (more : Bool) (s : State) : Host.Outcome State Fault Refusal :=
  s.act (State.hostNamedWrite seqControl 15 3 more)

/-- STOP (R166). -/
def execStop (more : Bool) (s : State) : Host.Outcome State Fault Refusal :=
  s.act (State.hostNamedWrite seqControl 15 4 more)

/-- ABANDON (R168). -/
def execAbandon (more : Bool) (s : State) : Host.Outcome State Fault Refusal :=
  s.act (State.hostNamedWrite seqControl 15 5 more)

/-- PROBE (R180). -/
def execProbe (more : Bool) (s : State) : Host.Outcome State Fault Refusal :=
  s.act (State.hostNamedWrite seqControl 15 6 more)

/-- The verdict word of a code, a review class and a defect index (section 12.6). -/
def verdictData (code : Nat) (cls : BitVec 4) (index : BitVec 12) (other : Word) : Word :=
  withFields other 0x0FFF00F3 (field 0 2 code + field 4 4 cls.toNat + field 16 12 index.toNat)

/-- VERDICT_IMAGED (R174). -/
def execVerdictImaged (cls : BitVec 4) (index : BitVec 12) (other : Word) (more : Bool) (s : State) :
    Host.Outcome State Fault Refusal :=
  s.act (State.hostNamedWrite verdictWord 15 (verdictData 1 cls index other) more)

/-- VERDICT_REIMAGE (R174). -/
def execVerdictReimage (cls : BitVec 4) (index : BitVec 12) (other : Word) (more : Bool) (s : State) :
    Host.Outcome State Fault Refusal :=
  s.act (State.hostNamedWrite verdictWord 15 (verdictData 2 cls index other) more)

/-- VERDICT_REJECT (R174). -/
def execVerdictReject (cls : BitVec 4) (index : BitVec 12) (other : Word) (more : Bool) (s : State) :
    Host.Outcome State Fault Refusal :=
  s.act (State.hostNamedWrite verdictWord 15 (verdictData 3 cls index other) more)

/-- VERDICT_TIMEOUT: the verdict timer reaches the verdict timeout (R173). -/
def execVerdictTimeout (s : State) : Host.Outcome State Fault Refusal :=
  s.act fun s => match s.seq.verdictTimer with
    | some t =>
      ((s.clockTo (t + 1000 * (s.plan.map (·.verdictTimeout)).getD 0)).onSeq fun q =>
        { q with verdictTimer := none }).emit (.failAttempt .verdictTimeout)
    | none => s

end Sys2Proof.Machine
end

