-- ==== Sys2Proof/Machine/ReportCommands.lean ====
section
/-! DEFINITION. The commands of the lot unit and of the report unit (chapters 10 and 11). -/

namespace Sys2Proof.Machine

/-- OPEN (R186). -/
def execOpenLot (more : Bool) (s : State) : Host.Outcome State Fault Refusal :=
  s.act (State.hostNamedWrite lotControl 15 1 more)

/-- CLOSE (R188). -/
def execCloseLot (more : Bool) (s : State) : Host.Outcome State Fault Refusal :=
  s.act (State.hostNamedWrite lotControl 15 2 more)

/-- FORCE_CLOSE (R189). -/
def execForceClose (more : Bool) (s : State) : Host.Outcome State Fault Refusal :=
  s.act (State.hostNamedWrite lotControl 15 3 more)

/-- POSTING: made while the ring has space and a slot holds a record; the arbiter chooses again once the posting's step
has been taken (R199). -/
def execPosting (s : State) : Host.Outcome State Fault Refusal :=
  s.act fun s =>
    if posting s || !ringSpace s then s
    else match nextSlot s.report with
      | some k => s.emit (.posting k)
      | none => s

/-- CONSUMER_WRITE (R201). -/
def execConsumerWrite (be : BitVec 4) (d : Word) (more : Bool) (s : State) : Host.Outcome State Fault Refusal :=
  s.act (State.hostNamedWrite consumerWord be d more)

/-- EVENT_WRITE (R203). -/
def execEventWrite (be : BitVec 4) (d : Word) (more : Bool) (s : State) : Host.Outcome State Fault Refusal :=
  s.act (State.hostNamedWrite eventWord be d more)

/-- EVENT_MASK_WRITE (R204). -/
def execEventMaskWrite (be : BitVec 4) (d : Word) (more : Bool) (s : State) : Host.Outcome State Fault Refusal :=
  s.act (State.hostNamedWrite eventMaskWord be d more)

/-- COALESCE_TIMER_EXPIRY: the coalescing timer reaches the coalesce time (R204). -/
def execCoalesceTimerExpiry (s : State) : Host.Outcome State Fault Refusal :=
  s.act fun s => match s.report.coalesce with
    | .running t =>
      let s1 := s.clockTo (t + 1000 * (s.plan.map (·.coalesceTime)).getD 0)
      { s1 with report := { s1.report with coalesce := .expired } }
    | _ => s

end Sys2Proof.Machine
end

