-- ==== Sys2Proof/Machine/Dispatch.lean ====
section
/-! DEFINITION. Each command's meaning: one arm per constructor of Instr. -/

namespace Sys2Proof.Machine

/-- The effect of a command on everything but the queue of waiting commands. -/
def exec (i : Instr) (s : State) : Host.Outcome State Fault Refusal :=
  match i with
  | .resetAssert => Sys2Proof.Machine.execResetAssert s
  | .resetRelease pins => Sys2Proof.Machine.execResetRelease pins s
  | .planRead => Sys2Proof.Machine.execPlanRead s
  | .writebackDrain => Sys2Proof.Machine.execWritebackDrain s
  | .waitingStepTaken => Sys2Proof.Machine.execWaitingStepTaken s
  | .queueEmptyRelease => Sys2Proof.Machine.execQueueEmptyRelease s
  | .adoptionMoment => Sys2Proof.Machine.execAdoptionMoment s
  | .forwardedAccess addr write words more => Sys2Proof.Machine.execForwardedAccess addr write words more s
  | .hostPWrite addr be data more => Sys2Proof.Machine.execHostPWrite addr be data more s
  | .hWordWrite addr be data more => Sys2Proof.Machine.execHWordWrite addr be data more s
  | .ringRecordWrite addr be data more => Sys2Proof.Machine.execRingRecordWrite addr be data more s
  | .postedResultRead addr more => Sys2Proof.Machine.execPostedResultRead addr more s
  | .partialTrigger addr be data more => Sys2Proof.Machine.execPartialTrigger addr be data more s
  | .sWordWrite addr be data more => Sys2Proof.Machine.execSWordWrite addr be data more s
  | .unknownRequest addr data more => Sys2Proof.Machine.execUnknownRequest addr data more s
  | .commitPlan more => Sys2Proof.Machine.execCommitPlan more s
  | .mapCarrier carrier other more => Sys2Proof.Machine.execMapCarrier carrier other more s
  | .declare other more => Sys2Proof.Machine.execDeclare other more s
  | .declareEmpty other more => Sys2Proof.Machine.execDeclareEmpty other more s
  | .resumeHandling other more => Sys2Proof.Machine.execResumeHandling other more s
  | .cancel slot other more => Sys2Proof.Machine.execCancel slot other more s
  | .go slot more => Sys2Proof.Machine.execGo slot more s
  | .sendAttempt => Sys2Proof.Machine.execSendAttempt s
  | .robotAck tag a b => Sys2Proof.Machine.execRobotAck tag a b s
  | .robotNak tag a b => Sys2Proof.Machine.execRobotNak tag a b s
  | .robotDone tag a b => Sys2Proof.Machine.execRobotDone tag a b s
  | .robotFault tag a b => Sys2Proof.Machine.execRobotFault tag a b s
  | .robotBadFrame bad => Sys2Proof.Machine.execRobotBadFrame bad s
  | .robotFrameTimeout => Sys2Proof.Machine.execRobotFrameTimeout s
  | .ackTimeout => Sys2Proof.Machine.execAckTimeout s
  | .doneTimeout => Sys2Proof.Machine.execDoneTimeout s
  | .presenceChange sensor level => Sys2Proof.Machine.execPresenceChange sensor level s
  | .debounceExpiry sensor => Sys2Proof.Machine.execDebounceExpiry sensor s
  | .encoderTransition axis phase => Sys2Proof.Machine.execEncoderTransition axis phase s
  | .preset more => Sys2Proof.Machine.execPreset more s
  | .motionEnable more => Sys2Proof.Machine.execMotionEnable more s
  | .motionDisable more => Sys2Proof.Machine.execMotionDisable more s
  | .settleExpiry => Sys2Proof.Machine.execSettleExpiry s
  | .moveTimeout => Sys2Proof.Machine.execMoveTimeout s
  | .stageFrameEnd => Sys2Proof.Machine.execStageFrameEnd s
  | .interlockAssert => Sys2Proof.Machine.execInterlockAssert s
  | .interlockRelease => Sys2Proof.Machine.execInterlockRelease s
  | .imgTrigPulseEnd => Sys2Proof.Machine.execImgTrigPulseEnd s
  | .coefficientWrite k be data more => Sys2Proof.Machine.execCoefficientWrite k be data more s
  | .alignmentCommit more => Sys2Proof.Machine.execAlignmentCommit more s
  | .identityCheckEnd => Sys2Proof.Machine.execIdentityCheckEnd s
  | .viewRequest more => Sys2Proof.Machine.execViewRequest more s
  | .inverseDone => Sys2Proof.Machine.execInverseDone s
  | .forwardDone => Sys2Proof.Machine.execForwardDone s
  | .predictionDone => Sys2Proof.Machine.execPredictionDone s
  | .actuatorFrameEnd => Sys2Proof.Machine.execActuatorFrameEnd s
  | .fsettledRise => Sys2Proof.Machine.execFsettledRise s
  | .hsamplePulseEnd => Sys2Proof.Machine.execHsamplePulseEnd s
  | .hreadyRise => Sys2Proof.Machine.execHreadyRise s
  | .heightSampleRead e => Sys2Proof.Machine.execHeightSampleRead e s
  | .focusSettleTimeout => Sys2Proof.Machine.execFocusSettleTimeout s
  | .sampleTimeout => Sys2Proof.Machine.execSampleTimeout s
  | .seed more => Sys2Proof.Machine.execSeed more s
  | .clearNode more => Sys2Proof.Machine.execClearNode more s
  | .clearMap more => Sys2Proof.Machine.execClearMap more s
  | .query more => Sys2Proof.Machine.execQuery more s
  | .sealList n more => Sys2Proof.Machine.execSealList n more s
  | .orderFormed => Sys2Proof.Machine.execOrderFormed s
  | .unsealList more => Sys2Proof.Machine.execUnsealList more s
  | .sealedWrite record k be data more => Sys2Proof.Machine.execSealedWrite record k be data more s
  | .skipDefect record more => Sys2Proof.Machine.execSkipDefect record more s
  | .unskipDefect record more => Sys2Proof.Machine.execUnskipDefect record more s
  | .start more => Sys2Proof.Machine.execStart more s
  | .pause more => Sys2Proof.Machine.execPause more s
  | .resume more => Sys2Proof.Machine.execResume more s
  | .stop more => Sys2Proof.Machine.execStop more s
  | .abandon more => Sys2Proof.Machine.execAbandon more s
  | .probe more => Sys2Proof.Machine.execProbe more s
  | .verdictImaged reviewClass index other more => Sys2Proof.Machine.execVerdictImaged reviewClass index other more s
  | .verdictReimage reviewClass index other more => Sys2Proof.Machine.execVerdictReimage reviewClass index other more s
  | .verdictReject reviewClass index other more => Sys2Proof.Machine.execVerdictReject reviewClass index other more s
  | .verdictTimeout => Sys2Proof.Machine.execVerdictTimeout s
  | .openLot more => Sys2Proof.Machine.execOpenLot more s
  | .closeLot more => Sys2Proof.Machine.execCloseLot more s
  | .forceClose more => Sys2Proof.Machine.execForceClose more s
  | .posting => Sys2Proof.Machine.execPosting s
  | .consumerWrite be data more => Sys2Proof.Machine.execConsumerWrite be data more s
  | .eventWrite be data more => Sys2Proof.Machine.execEventWrite be data more s
  | .eventMaskWrite be data more => Sys2Proof.Machine.execEventMaskWrite be data more s
  | .coalesceTimerExpiry => Sys2Proof.Machine.execCoalesceTimerExpiry s
  | .robotByteReceived byte => Sys2Proof.Machine.execRobotByteReceived byte s

end Sys2Proof.Machine
end

