-- ==== Sys2Proof/Safety.lean ====
section
/-! DEFINITION. What counts as a safe state, in the terms that the claims use: the laws that every state keeps. -/

namespace Sys2Proof.Machine

/-- No two entries of the write-back queue have the same address (R16). -/
def distinctAddresses : List (Nat × Word) → Bool
  | [] => true
  | e :: q => !hasEntry q e.1 && distinctAddresses q

/-- The write-back queue holds at most 16 entries and at most one for any address (R16). -/
def queueLawful (q : List (Nat × Word)) : Bool := decide (q.length ≤ Config.queueEntries) && distinctAddresses q

/-- At most one of motion enable, interlock asserted and awaiting enable is set: an assertion of INTERLOCK clears motion
enable and awaiting enable, a release sets awaiting enable with motion enable clear, and an accepted MOTION_ENABLE, which
needs INTERLOCK released, clears awaiting enable (R97 to R100). -/
def permissionLawful (m : Motion) : Bool :=
  !(m.enable && m.interlock) && !(m.enable && m.awaiting) && !(m.interlock && m.awaiting)

/-- The invariant of every state: memory is in its canonical form, the write-back queue is lawful, and so is the
permission to move. -/
def Inv (s : State) : Bool := Memory.wf s.mem && queueLawful s.queue && permissionLawful s.motion

/-! ### The laws of the steps -/

/-- The operation belongs to the host's request in progress (R11). -/
def StepOp.ofHost : StepOp → Bool
  | .request _ _ => true
  | .finishHost => true
  | .mapSlot _ _ _ => true
  | .declareStep _ _ => true
  | .declaredLoad _ => true
  | .declaredDeparture _ => true
  | .departureEnd => true
  | .clearNodes _ host => host
  | .clearImaged => true
  | _ => false

/-- What is untaken of the host's request, in order: nothing once the request word is finished, otherwise the request
itself or the rest of its operations, the last of which finishes the word (R11). -/
def hostOpsLawful (busy : Bool) : List StepOp → Bool
  | [] => !busy
  | [.request _ _] => busy
  | [.finishHost] => busy
  | [.mapSlot _ _ _, .finishHost] => busy
  | [.declareStep _ _, .finishHost] => busy
  | [.declaredLoad _, .finishHost] => busy
  | [.declaredDeparture _, .finishHost] => busy
  | [.declaredDeparture w, .declareStep v _, .finishHost] => busy && w == v
  | [.departureEnd, .finishHost] => busy
  | [.departureEnd, .declareStep _ _, .finishHost] => busy
  | [.clearNodes _ true, .finishHost] => busy
  | [.clearImaged, .finishHost] => busy
  | _ => false

/-- The H word of a window lies in it (R4, R5). -/
def properWord (s : State) (w : WordRef) : Bool := w.off % 4 == 0 && wordClass s.plan w == .h

/-- The numbers of an operation lie in their ranges: slots, wafers, positions, records, attributes, histogram bins and
words. -/
def StepOp.inRange (s : State) : StepOp → Bool
  | .publish cs => cs.all fun c => properWord s c.word
  | .departTransform cs => cs.all fun c => properWord s c.word
  | .request w _ => w.off % 4 == 0 && wordClass s.plan w == .t
  | .loadCycle k _ => decide (k < 10)
  | .presence p _ => decide (50 ≤ p ∧ p < 55)
  | .declareStep w t => decide (w < 50 ∧ t = absent)
  | .declaredLoad w => decide (w < 50)
  | .declaredDeparture w => decide (w < 50)
  | .clearMember w => decide (w < 50)
  | .buildRecord k => decide (k ≤ s.defects.n)
  | .count i _ _ => decide (i < 16)
  | .histogram c _ => decide (c < 16)
  | .zeroWafer i => decide (i < 16)
  | .openAttr i => decide (i < 16)
  | .openHist k => decide (k < 2)
  | _ => true

/-- The law of the steps: between commands none is made or in hand, no task is empty, the host's request in progress is
what is untaken of it (R11), and every number is in range. -/
def stepsLawful (s : State) : Bool :=
  s.made.isEmpty && s.sequel.isEmpty && s.named.isEmpty && s.waiting.all (fun k => !k.isEmpty)
    && hostOpsLawful s.hostBusy ((untaken s).filter StepOp.ofHost) && (untaken s).all (StepOp.inRange s)
    && (s.planU.standing != .starting || !s.hostBusy)

/-- A plan's windows are aligned, inside the address space and disjoint (R29). -/
def planPlaced (planBase : Nat) (p : Plan) : Bool :=
  (workingWindows.all fun w => (winExtent p w).1 % 4096 == 0 && decide ((winExtent p w).1 + (winExtent p w).2 ≤ 2 ^ 28))
    && decide (((planBase, Config.planBlockSize) :: workingWindows.map (winExtent p)).Pairwise fun a b => overlap a b = false)
    && decide (16 ≤ p.ringLength ∧ p.ringLength ≤ 1024)

/-- The end of a refused start-up is untaken at most once, and only while start-up waits for it without a plan; an adoption
step is untaken only under the plan adopted (R32, R34, R38). -/
def startUpLawful (s : State) : Bool :=
  (!(untaken s).contains .startUpEnd ||
      ((untaken s).count .startUpEnd == 1 && s.planU.standing == .starting && s.planU.work == .idle && s.plan.isNone))
    && (s.plan.isSome || !adopting s)

/-- The plans that the part holds are placed; start-up has no plan until it adopts one (R25, R32, R33). -/
def plansLawful (s : State) : Bool :=
  s.plan.all (planPlaced s.planBase) && s.map.all (planPlaced s.planBase)
    && (match s.planU.work with
      | .awaiting p _ _ => s.planU.standing == .committing && planPlaced s.planBase p
      | .draining => s.planU.standing == .committing
      | .reading _ => s.planU.standing == .starting || s.planU.standing == .committing
      | .idle => true)
    && (s.planU.standing != .starting || s.planU.work == .idle || s.plan.isNone)
    && (s.inReset || s.plan.isSome || s.defects.list == .empty)
    && startUpLawful s

/-! ### The law of the handling tables (R43) -/

/-- A wafer is at the position that its record names, in transit with the SENT slot, or UNKNOWN and SUSPECT; an UNMAPPED
one has no place (R41, R43). -/
def waferLawful (s : State) (w : Nat) : Bool :=
  let v := s.wafer w
  if v.progress == .unmapped then v.place == .unknown && !v.suspect
  else match v.place with
    | .pos p => decide (p < 55) && (s.posn p).occupant == some w && !v.suspect
    | .inTransit => !v.suspect && [0, 1, 2, 3].any fun k => (s.slot k).st == .sent && (s.slot k).wafer == w
    | .unknown => v.suspect

/-- The occupant of a position is a wafer at that position, which in a slot of a carrier is that slot's own; a position is
not occupied and claimed at once, a claim is held by the SENT slot for its source or destination, and a reservation by the
QUEUED slot whose destination it is (R41 to R43). -/
def positionLawful (s : State) (p : Nat) : Bool :=
  let v := s.posn p
  (match v.occupant with
    | none => true
    | some w => decide (w < 50) && (s.wafer w).progress != .unmapped && (s.wafer w).place == .pos p && v.claim.isNone
        && (decide (50 ≤ p) || p == w)) &&
  (match v.claim with
    | none => true
    | some k => decide (k < 4) && (s.slot k).st == .sent && ((s.slot k).dest == p || (s.slot k).source == .pos p)) &&
  (match v.reservation with
    | none => true
    | some k => decide (k < 4) && (s.slot k).st == .queued && (s.slot k).dest == p)

/-- A QUEUED slot reserves its destination and is in the transfer queue; a SENT slot claims its source and destination,
with its wafer in transit (R43, R62, R66). -/
def slotLawful (s : State) (k : Nat) : Bool :=
  let t := s.slot k
  (s.hand.queue.contains k == (t.st == .queued)) &&
  (!t.open || (decide (t.wafer < 50 ∧ t.dest < 55) && (decide (50 ≤ t.dest) || t.dest == t.wafer))) &&
  (t.st != .queued || (s.posn t.dest).reservation == some k) &&
  (t.st != .sent ||
    ((s.wafer t.wafer).place == .inTransit && (s.wafer t.wafer).progress != .unmapped && (s.posn t.dest).claim == some k
      && (match t.source with
        | .pos p => decide (p < 55) && p != t.dest && (s.posn p).claim == some k && (decide (50 ≤ p) || p == t.wafer)
        | _ => false)))

/-- What an untaken operation of a MAP or a DECLARE relies on (R47, R48, R54, R55). -/
def StepOp.handlingLawful (s : State) : StepOp → Bool
  | .mapSlot c k _ => (List.range 25).all fun i =>
      let w := carrierBase c + i
      decide (i < k) || ((s.posn w).claim.isNone && (s.posn w).reservation.isNone
        && ((s.wafer w).progress == .unmapped || (s.wafer w).place == .pos w))
  | .declareStep w _ => (s.wafer w).lost && (s.hand.stage != some w || (untaken s).contains (.declaredDeparture w))
  | .declaredLoad w => (s.wafer w).progress != .unmapped &&
      (match (s.wafer w).place with
        | .pos p => p == 52
        | .inTransit => (s.sentSlot.map fun k => (s.slot k).source) == some (.pos 52)
        | .unknown => true)
  | .declaredDeparture w => (s.wafer w).progress != .unmapped
  | _ => true

/-- The stage wafer is on ST, in transit from it, or lost, unless its declared departure is untaken (R44, R55, R80). -/
def stageLawful (s : State) : Bool :=
  match s.hand.stage with
  | none => true
  | some w => decide (w < 50) && (s.wafer w).progress != .unmapped &&
      ((untaken s).contains (.declaredDeparture w) ||
        match (s.wafer w).place with
        | .pos p => p == 52
        | .inTransit => (s.sentSlot.map fun k => (s.slot k).source) == some (.pos 52)
        | .unknown => true)

/-- The law of the handling tables: every wafer is in one place, and the tables agree (R43). -/
def tablesLawful (s : State) : Bool :=
  (List.range 50).all (waferLawful s) && (List.range 55).all (positionLawful s) && (List.range 4).all (slotLawful s)
    && s.hand.queue.all (fun k => decide (k < 4)) && decide s.hand.queue.Nodup
    && (List.range 4).all (fun j => (List.range 4).all fun k =>
      j == k || !(s.slot j).open || !(s.slot k).open
        || ((s.slot j).wafer != (s.slot k).wafer && (s.slot j).dest != (s.slot k).dest
          && ((s.slot j).st != .sent || (s.slot k).st != .sent)))
    && stageLawful s
    && s.hand.prior != some .unmapped
    && (untaken s).all (StepOp.handlingLawful s)

/-! ### The law of the revisit: the sequencer, the focus attempt and the defect list (R131, R146, R152, R161) -/

/-- The state that the sequencer is in, or, in PROBING, returns to (R161, R181). -/
def effectiveState (q : Sequencer) : SeqState :=
  if q.st == .probing then (q.prior.map (·.1)).getD .idle else q.st

/-- An attempt that is not ending runs in FOCUS of a revisit or a probe (R131, R132). -/
def attemptLawful (s : State) : Bool :=
  match s.focus.attempt with
  | none => true
  | some a => a.ending || ((s.seq.st == .running || s.seq.st == .probing) && s.seq.phase == .focus)

/-- The sequencer's registers agree with its state and phase (R161, R165, R170, R171, R176, R181). -/
def sequencerLawful (s : State) : Bool :=
  let q := s.seq
  (q.staging.isNone || pausedRing q) &&
  (!q.selecting || (q.st == .running && q.phase == .select)) &&
  (q.outstanding != some .target || (q.st == .running && q.phase == .target)) &&
  (q.outstanding != some .probe || (q.st == .probing && q.phase == .target)) &&
  (q.current.isNone || (q.st == .running && (activePhase q || q.phase == .resolve)) || pausedRing q) &&
  (q.current.isNone || q.phase != .expose || q.st == .running) &&
  (if q.st == .probing then
    (match q.prior with
      | some (st, r) => st == .idle || st == .ready || (st == .paused && r != .ring) || st == .done
      | none => false)
    else true) &&
  (!(q.st == .running && activePhase q) ||
    (match q.current with
      | some d => isActive s d || (q.phase == .move && !moving s.motion && q.target.isNone)
      | none => false))

/-- The number of records below N in a state. -/
def recordsIn (s : State) (st : DefectState) : Nat := ((List.range s.defects.n).filter fun d => (s.defect d).st == st).length

/-- The order build: the records below the step that is untaken are PENDING, the others unlisted, and each index stands
once in the order formed (R148). -/
def buildLawful (s : State) : Bool :=
  let builds := (untaken s).filterMap fun op => match op with | .buildRecord k => some k | _ => none
  let upTo (k : Nat) : Bool :=
    (List.range s.defects.n).all fun d => (s.defect d).st == (if d < k then .pending else .unlisted)
  if s.defects.list != .building then builds.isEmpty
  else match s.defects.formed, builds with
    | false, [] => upTo 0
    | true, [k] => upTo k && s.defects.order.isPerm (List.range s.defects.n)
    | _, _ => false

/-- The law of the defect list: the queue holds each PENDING record of a sealed list once, and nothing otherwise; at most
one record is ACTIVE, the current defect in MOVE, SETTLE, FOCUS or EXPOSE; the counts count the records (R146, R152). -/
def listLawful (s : State) : Bool :=
  let l := s.defects
  (if l.list == .sealed then
    decide l.queue.Nodup && l.queue.all (fun d => decide (d < l.n))
      && (List.range l.n).all (fun d => l.queue.contains d == ((s.defect d).st == .pending))
    else l.queue.isEmpty) &&
  l.recs.all (fun e => decide (e.1 < l.n) || e.2.st == .unlisted) &&
  (l.list != .empty || l.n == 0) &&
  l.recs.all (fun e => e.2.st != .active ||
    ((s.seq.st == .running && activePhase s.seq) && s.seq.current == some e.1 && s.defect e.1 == e.2)) &&
  [DefectState.pending, .active, .imaged, .failed, .skipped, .quota, .unreachable].all
    (fun st => s.stateCount st.num == recordsIn s st) &&
  ((List.range 16).all fun c => s.imagedCount c
    == ((List.range l.n).filter fun d => (s.defect d).st == .imaged && (s.defect d).priorClass == c).length) &&
  (effectiveState s.seq != .ready || (List.range 16).all fun c => s.imagedCount c == 0) &&
  (l.list == .empty || !(untaken s).contains .clearImaged) &&
  (effectiveState s.seq == .idle) == (l.list == .empty) &&
  (effectiveState s.seq == .ordering) == (l.list == .building) &&
  buildLawful s

/-- The law of the revisit; an asserted RESET_N abandons the work in progress. -/
def revisitLawful (s : State) : Bool := s.inReset || (attemptLawful s && sequencerLawful s && listLawful s)

/-! ### The law of the queue (R10) -/

/-- The H words whose values are kept in memory behind the queue, once start-up has ended: those of the plan block, and
under a plan those of the working windows and of the listed defect records; not the ring's record area (R9, R10, R34). -/
def keptWords (s : State) : List WordRef :=
  planStatusWords ++ (List.range 9).map capabilityWord ++
    match s.plan with
    | none => []
    | some _ => (adoptWords.drop 10).flatten ++
        (((List.range s.defects.n).filter fun d => (s.defect d).st != .unlisted).flatMap fun d =>
          [recordWord d 5, recordWord d 6, recordWord d 7])

/-- The words whose step of an adoption or of a refused start-up is untaken (R34, R38). -/
def unadopted (s : State) : List WordRef :=
  ((untaken s).flatMap fun op => match op with | .adoption k => (adoptWords.drop k).flatten | _ => []) ++
    if s.plan.isNone && s.planU.standing == .starting then
      ((untaken s).takeWhile (· != .startUpEnd)).flatMap fun op =>
        match op with | .publish cs => cs.map (·.word) | _ => []
    else []

/-- Start-up has not yet come to its steps (R32). -/
def beforeSteps (s : State) : Bool :=
  s.plan.isNone && s.planU.standing == .starting && !(untaken s).contains .startUpEnd

/-- The law of the queue: what the host would read of a word, from its queued entry or else from memory, is the value that
the steps taken have given it (R10). It stands from the first steps of start-up on, while the windows in force are the
plan's. -/
def queueCurrent (s : State) : Bool :=
  s.inReset || beforeSteps s || s.map != s.plan ||
  (keptWords s).all fun w => (unadopted s).contains w ||
    match wordAddr s.planBase s.plan w with
    | none => true
    | some a => (entryFor s.queue a).getD (readWordAt s.mem a) == shownWord s w

/-- The entries of the queue lie at word addresses. -/
def queueAligned (s : State) : Bool := s.queue.all fun e => e.1 % 4 == 0

/-- All the laws of a state together, but for the law of the queue. -/
def Lawful (s : State) : Bool :=
  Inv s && stepsLawful s && plansLawful s && tablesLawful s && revisitLawful s && queueAligned s

/-! ### The terms of the statements -/

/-- A state between commands: RESET_N is not asserted, no step is untaken, and the invariant holds. -/
abbrev Quiet (s : State) : Prop :=
  Inv s = true ∧ s.inReset = false ∧ s.made = [] ∧ s.sequel = [] ∧ s.named = [] ∧ s.waiting = []

/-- The host port can take a word that needs the memory port (R21, R22), and the word `w` of a window in force lies at
address `a` (R4). -/
abbrev Takes (s : State) (w : WordRef) (a : Nat) : Prop :=
  Quiet s ∧ memoryOpen s = true ∧ hostAddr s w = some a

/-- The write-back queue has at least `n` free entries (R16). -/
abbrev Room (s : State) (n : Nat) : Prop := s.queue.length + n ≤ Config.queueEntries

/-- The host's word has been written to memory at address `a` under its byte enables and is finished (R1, R6, R11). -/
def State.hostDone (a : Nat) (be : BitVec 4) (d : Word) (more : Bool) (s : State) : State :=
  (s.memWrite a be d).finishWord more

/-- Every byte outside the four bytes at address `a` reads as before. -/
def StoresOnly (s t : State) (a : Nat) : Prop := ∀ b, b < a ∨ a + 4 ≤ b → readByte t.mem b = readByte s.mem b

/-- The write-back queue has taken the values that the words `ws` now have, in their order: each replaces its queued
entry or joins the tail (R17). -/
def Publishes (s t : State) (ws : List WordRef) : Prop := t.queue = putEntries s.queue (wordEntries t ws)

/-- The copy that the owning block keeps of a P word (R6). -/
def copyOf (s : State) (w : WordRef) : Word :=
  match w.win with
  | .plan => s.planU.copies.get 0 (w.off / 4)
  | .handling =>
    if w.off < 0x320 then (s.wafer (w.off / 16)).id
    else if w.off < 0x440 then
      (if w.off % 16 = 0 then (s.slot ((w.off - 0x400) / 16)).waferCopy else (s.slot ((w.off - 0x400) / 16)).destCopy)
    else if w.off = 0x444 then s.hand.declareWord
    else s.hand.mapPattern
  | .stage =>
    if w.off = 0x010 then s.motion.presetX
    else if w.off = 0x014 then s.motion.presetY
    else s.xform.copies.get 0 ((w.off - 0x040) / 4)
  | .focus =>
    if w.off = 0x910 then s.focus.seedIndex
    else if w.off = 0x914 then s.focus.seedValue
    else if w.off = 0x934 then s.focus.queryX
    else s.focus.queryY
  | .defect =>
    if w.off = 0x020 then s.seq.probeX
    else if w.off = 0x024 then s.seq.probeY
    else if w.off < 0x080 then s.defects.quotas.get 0 ((w.off - 0x040) / 4)
    else if w.off = 0x080 then s.defects.census
    else
      let r := s.defect ((w.off - 0x1000) / 32)
      (match w.off % 32 / 4 with | 0 => r.x | 1 => r.y | 2 => r.info | _ => r.tag)
  | .lot =>
    if w.off = 0x000 then s.lot.tagCopy
    else if w.off = 0x004 then s.lot.expectedCopy
    else if w.off = 0x008 then s.lot.holdCopy
    else if w.off = 0x020 then s.report.mask
    else (s.attr ((w.off - 0x100) / 16)).threshold
  | .ring => s.report.consumer

/-- The word is one of the ten coefficient words (R105). -/
def isCoefficient (w : WordRef) : Bool := w.win == .stage && decide (0x040 ≤ w.off ∧ w.off < 0x068)

/-- The result code that the tables hold for a request word (R11). -/
def resultOf (s : State) (w : WordRef) : Code :=
  match w.win with
  | .plan => s.planU.commitResult
  | .handling => if w.off = 0x440 then s.hand.result else (s.slot ((w.off - 0x400) / 16)).goResult
  | .stage =>
    if w.off = 0x018 then s.motion.result
    else if w.off = 0x068 then s.xform.commitResult
    else s.xform.viewResult
  | .focus => if w.off = 0x918 then s.focus.ctlResult else s.focus.queryResult
  | .defect =>
    if w.off = 0x000 then s.defects.sealResult
    else if w.off = 0x008 then s.seq.result
    else if w.off = 0x018 then s.seq.vResult
    else (s.defect ((w.off - 0x1000) / 32)).disposition
  | .lot => s.lot.result
  | .ring => .noResult

/-- A value names a request of a request word (R35, R46, R61, R85, R109, R117, R140, R142, R155, R163, R174, R185); every
value of the seal word does (R147, R150). -/
def namesRequest (w : WordRef) (d : Word) : Bool :=
  match w.win with
  | .plan => d == Config.commitCode
  | .handling =>
    if w.off = 0x440 then
      decide (getField d 0 4 = 1 ∧ (getField d 8 2 = 1 ∨ getField d 8 2 = 2))
        || decide (2 ≤ getField d 0 4 ∧ getField d 0 4 ≤ 5)
    else d == 1
  | .stage => if w.off = 0x018 then decide (1 ≤ d.toNat ∧ d.toNat ≤ 3) else d == 1
  | .focus => if w.off = 0x918 then decide (1 ≤ d.toNat ∧ d.toNat ≤ 3) else d == 1
  | .defect =>
    if w.off = 0x000 then true
    else if w.off = 0x008 then decide (1 ≤ d.toNat ∧ d.toNat ≤ 6)
    else if w.off = 0x018 then getField d 0 2 != 0
    else d == 1 || d == 2
  | .lot => decide (1 ≤ d.toNat ∧ d.toNat ≤ 3)
  | .ring => false

/-- The H words that hold the result code of a request word (R11). -/
def resultWords (w : WordRef) : List WordRef :=
  match w.win with
  | .plan => planStatusWords
  | .handling => if w.off = 0x440 then [handlingStatus] else [slotWord ((w.off - 0x400) / 16)]
  | .stage => if w.off = 0x018 then stageStatus else transformStatus
  | .focus => [focusResultWord]
  | .defect =>
    if w.off = 0x000 then [listStatus]
    else if w.off = 0x008 then [seqResultWord]
    else if w.off = 0x018 then [verdictResultWord]
    else [recordWord ((w.off - 0x1000) / 32) 7]
  | .lot => lotStateWords
  | .ring => []

/-- The work that stands against a commit: a lot is OPEN, the sequencer is not IDLE, or a slot is QUEUED or SENT (R35). -/
abbrev WorkOpen (s : State) : Prop :=
  s.lot.st = .opened ∨ s.seq.st ≠ .idle ∨ ∃ k, k < 4 ∧ ((s.slot k).st = .queued ∨ (s.slot k).st = .sent)

/-- The extents of the plan block and of the six working windows of a plan (R29). -/
def extents (planBase : Nat) (p : Plan) : List (Nat × Nat) :=
  (planBase, Config.planBlockSize) :: workingWindows.map (winExtent p)

/-- The values of a plan lie in their ranges (R27, R29). -/
def planInRange (p : Plan) : Prop :=
  (256 ≤ p.capacity ∧ p.capacity ≤ 4096 ∧ p.capacity % 32 = 0) ∧ (16 ≤ p.ringLength ∧ p.ringLength ≤ 1024) ∧
  (1 ≤ p.coalesceCount ∧ p.coalesceCount ≤ 64) ∧ (1 ≤ p.coalesceTime ∧ p.coalesceTime ≤ 1000) ∧
  (1 ≤ p.maxAttempts ∧ p.maxAttempts ≤ 3) ∧ (1 ≤ p.focusSamples ∧ p.focusSamples ≤ 8) ∧
  (1 ≤ p.focusGain ∧ p.focusGain ≤ 512) ∧ (10 ≤ p.focusTolerance ∧ p.focusTolerance ≤ 2000) ∧
  (1000000 ≤ p.pitch ∧ p.pitch ≤ 32000000) ∧ (p.zMin ≤ p.nominalZ ∧ p.nominalZ ≤ p.zMax) ∧
  p.travelXMin ≤ p.travelXMax ∧ p.travelYMin ≤ p.travelYMax ∧
  (1 ≤ p.arrivalWindow ∧ p.arrivalWindow ≤ 65535) ∧ p.settleTime ≤ 65535 ∧
  (10 ≤ p.moveTimeout ∧ p.moveTimeout ≤ 10000) ∧ (1 ≤ p.focusSettleTimeout ∧ p.focusSettleTimeout ≤ 500) ∧
  (1 ≤ p.sampleTimeout ∧ p.sampleTimeout ≤ 100) ∧ (100 ≤ p.verdictTimeout ∧ p.verdictTimeout ≤ 60000) ∧
  (10 ≤ p.robotAckTimeout ∧ p.robotAckTimeout ≤ 1000) ∧ (1000 ≤ p.robotDoneTimeout ∧ p.robotDoneTimeout ≤ 120000) ∧
  (5 ≤ p.presenceDebounce ∧ p.presenceDebounce ≤ 500) ∧ (100000 ≤ p.bandHeight ∧ p.bandHeight ≤ 50000000)

/-- A STOP frame has been requested of the stage link (R88): a STOP frame being shifted satisfies it, otherwise one begins
with the current frame sequence number; a held MOVE frame is discarded. -/
def StopRequested (now : Nat) (m m' : Motion) : Prop :=
  m'.heldMove = none ∧
  ((∃ f, m.frame = some f ∧ f.move = false ∧ m'.frame = some f ∧ m'.frameSeq = m.frameSeq) ∨
   ((∀ f, m.frame = some f → f.move = true) ∧ m'.frameSeq = m.frameSeq + 1 ∧
    m'.frame = some { move := false, bytes := [0x11, m.frameSeq, 0, 0, 0, 0, 0, 0, 0, 0, 0x11 + m.frameSeq], began := now }))

/-- The conditions 3 and 4 of an alignment commit (R109), for a wafer. -/
abbrev AlignReady (s : State) (w : Nat) : Prop :=
  s.hand.stage = some w ∧ (s.posn 52).occupant = some w ∧
  ((s.wafer w).progress = .loaded ∨ (s.wafer w).progress = .aligned ∨ (s.wafer w).progress = .reviewing) ∧
  s.seq.st ≠ .ordering ∧ s.seq.st ≠ .running ∧ s.seq.st ≠ .probing ∧ s.seq.st ≠ .halted

/-- The wafer on ST is the stage wafer and is ALIGNED or REVIEWING (R164, R180). -/
def ReviewReady (s : State) : Prop :=
  ∃ w, s.hand.stage = some w ∧ (s.posn 52).occupant = some w ∧
    ((s.wafer w).progress = .aligned ∨ (s.wafer w).progress = .reviewing)

/-- Motion enable is ENABLED and INTERLOCK released (R89). -/
abbrev Permitted (s : State) : Prop := s.motion.enable = true ∧ s.motion.interlock = false

/-- No pending flag of the sequencer is set (R165). -/
abbrev NoFlags (q : Sequencer) : Prop :=
  q.fPause = false ∧ q.fStop = false ∧ q.fTrip = false ∧ q.fHalt = false ∧ q.fFault = false

/-- Of the sequencer's pending flags the pause flag alone is set (R165). -/
abbrev PauseAlone (q : Sequencer) : Prop :=
  q.fPause = true ∧ q.fStop = false ∧ q.fTrip = false ∧ q.fHalt = false ∧ q.fFault = false

/-- The sequencer is RUNNING, PROBING or PAUSED(RING), the states that a hand-over of another block can change (R177). -/
abbrev SeqEngaged (s : State) : Prop :=
  s.seq.st = .running ∨ s.seq.st = .probing ∨ (s.seq.st = .paused ∧ s.seq.reason = .ring)

/-- The defect of a revisit in progress: it is current and ACTIVE (R171). -/
abbrev Revisiting (s : State) (d : Nat) : Prop :=
  s.seq.st = .running ∧ s.seq.current = some d ∧ (s.defect d).st = .active

/-- A record has gone from the state number `old` to the state number `new`: the per-state counts (R146). -/
def CountsMove (s t : State) (old new : Nat) : Prop :=
  ∀ k, t.stateCount k
    = if k = old then s.stateCount k - 1 else if k = new then s.stateCount k + 1 else s.stateCount k

/-- The sequencer has come to the pause that the host asked for (R165): no revisit is in progress and no flag is left. -/
abbrev HostPaused (q : Sequencer) : Prop :=
  q.st = .paused ∧ q.reason = .host ∧ q.phase = .noPhase ∧ q.current = none ∧ q.verdictTimer = none ∧ NoFlags q

/-- A revisit of defect `d` has been resolved with a report (R176): the stage wafer's visited count has increased by one,
and the REVISIT record is staged. -/
def Resolved (s t : State) (d : Nat) : Prop :=
  (∀ w, t.wafer w = if s.hand.stage = some w then { s.wafer w with visited := (s.wafer w).visited + 1 } else s.wafer w) ∧
  ∃ r, t.report.seqSlot = some r ∧ r.kind = 1 ∧ r.wafer = s.hand.stage.getD 63 ∧
    r.w1 = BitVec.ofNat 32 d ∧ getField r.w2 0 4 = (t.defect d).outcome.num ∧
    r.w3 = (if (t.defect d).st = .imaged then (t.defect d).acceptedZ else (t.defect d).tag)

/-- An update of attribute `i` to this wafer value trips it (R194). -/
def tripsAttr (s : State) (i wafer : Nat) (counted : Bool) : Bool :=
  counted && s.hand.stage.isSome && (s.attr i).threshold != 0 && decide ((s.attr i).threshold.toNat < wafer)

/-- It is the lot's first trip (R195). -/
def tripsFirst (s : State) (i wafer : Nat) (counted : Bool) : Bool := tripsAttr s i wafer counted && !s.lot.tripped

/-- The lot's first trip holds the sequencer (R183, R195). -/
def tripHolds (s : State) (i wafer : Nat) (counted : Bool) : Bool :=
  tripsFirst s i wafer counted && s.lot.holdCopy.getLsbD 0
    && (s.seq.st == .running || (s.seq.st == .paused && s.seq.reason == .ring))

/-- Attribute `i` has been updated to a value and a wafer value, with the trip that they make (R183, R190, R194, R195). -/
def LotUpdated (s t : State) (i value wafer : Nat) (counted : Bool) : Prop :=
  let v := s.attr i
  let first := tripsFirst s i wafer counted
  t.attr i = { v with
    value := value, wafer := wafer, tripped := v.tripped || tripsAttr s i wafer counted, first := v.first || first } ∧
  (∀ j, j ≠ i → t.attr j = s.attr j) ∧
  t.lot.tripped = (s.lot.tripped || first) ∧ t.lot.firstTrip = (if first then i else s.lot.firstTrip) ∧
  t.report.events = (if first then s.report.events ||| 128 else s.report.events) ∧
  t.report.lotSlot = (if first then some {
      kind := 5, qualifier := 0, wafer := s.hand.stage.getD 63, w1 := s.lot.tag.setWidth 32
      w2 := field 0 28 (min wafer (2 ^ 28 - 1)) + field 28 4 i, w3 := v.threshold }
    else s.report.lotSlot) ∧
  t.seq = { s.seq with fTrip := s.seq.fTrip || tripHolds s i wafer counted }

/-- A fault's hand-over counts for the lot: a lot is OPEN, and the stage wafer is a member or there is none (R187). -/
def faultCounts (s : State) : Bool :=
  s.lot.st == .opened && match s.hand.stage with | none => true | some w => (s.wafer w).member

/-- The wafer value of a fault attribute after its hand-over (R187, R190). -/
def faultWafer (s : State) (i : Nat) : Nat :=
  if s.hand.stage.isSome then min 4294967295 ((s.attr i).wafer + 1) else (s.attr i).wafer

/-- The hand-over of a fault has been counted in attribute `i` (R187, R190, R194, R195). -/
def FaultCounted (s t : State) (i : Nat) : Prop :=
  LotUpdated s t i (if faultCounts s then min 4294967295 ((s.attr i).value + 1) else (s.attr i).value) (faultWafer s i)
    (faultCounts s)

/-- The words that the counting of a fault names, step by step (R183, R190, R194, R195). -/
def faultWords (s : State) (i : Nat) : List WordRef :=
  (if s.hand.stage.isSome || faultCounts s then [attrWord i 0, attrWord i 1] else [])
    ++ (if tripsAttr s i (faultWafer s i) (faultCounts s) then [attrWord i 3] else [])
    ++ (if tripsFirst s i (faultWafer s i) (faultCounts s) then lotStateWords else [])
    ++ (if tripHolds s i (faultWafer s i) (faultCounts s) then dispatchWords else [])

/-- The fault kind numbered `k` has been made pending with a detail: its entry counts the repeat; with the fault slot empty,
a plan in force and no earlier kind pending, its record is staged at once and the entry's flag and count are cleared
(R198, R202). -/
def FaultMade (s t : State) (k place : Nat) (code : BitVec 16) : Prop :=
  let time := BitVec.ofNat 32 (t.now / 1000)
  let n := if (s.faultEntry k).pending then min 65535 ((s.faultEntry k).repeats + 1) else 1
  let held := s.report.faultSlot ≠ none ∨ s.plan = none
  let staged := ¬held ∧ ∀ j, j < k → (s.faultEntry j).pending = false
  (staged → t.faultEntry k = { pending := false, repeats := 0, place := place, code := code, time := time } ∧
    t.report.faultSlot = some {
      kind := 4, qualifier := k, wafer := s.hand.stage.getD 63, w1 := BitVec.ofNat 32 place
      w2 := field 0 16 n + field 16 16 code.toNat, w3 := time }) ∧
  (¬staged → t.faultEntry k = { pending := true, repeats := n, place := place, code := code, time := time }) ∧
  (held → t.report.faultSlot = s.report.faultSlot) ∧
  (held ∨ staged → ∀ j, j ≠ k → t.faultEntry j = s.faultEntry j)

/-- The attributes `is`, each once, and no others have been counted for the stage wafer where one is recorded, while no lot
is OPEN (R187, R190). -/
def CountedForWafer (s t : State) (is : List Nat) : Prop :=
  ∀ j, t.attr j = if j ∈ is ∧ s.hand.stage.isSome
    then { s.attr j with wafer := min 4294967295 ((s.attr j).wafer + 1) } else s.attr j

/-- An attempt on defect `d` has failed with an outcome (R154, R175): retried, the defect is PENDING at the tail of the
queue without a report, and otherwise FAILED and resolved. The attributes `also` have been counted besides. -/
def AttemptCharged (s t : State) (p : Plan) (d : Nat) (o : DefectOutcome) (also : List Nat) : Prop :=
  let n := (s.defect d).attempts + 1
  (∀ j, j ≠ d → t.defect j = s.defect j) ∧
  (n < p.maxAttempts → t.defect d = { s.defect d with st := .pending, attempts := n, outcome := o } ∧
    t.defects.queue = s.defects.queue ++ [d] ∧ CountsMove s t 2 1 ∧ CountedForWafer s t (6 :: also) ∧
    (∀ w, t.wafer w = s.wafer w) ∧ t.report.seqSlot = s.report.seqSlot) ∧
  (p.maxAttempts ≤ n → t.defect d = { s.defect d with st := .failed, attempts := n, outcome := o } ∧
    t.defects.queue = s.defects.queue ∧ CountsMove s t 2 4 ∧ CountedForWafer s t (5 :: also) ∧ Resolved s t d)

/-- The defect of a revisit has been returned to the head of the queue with its attempts kept (R154, R168). -/
def Returned (s t : State) (d : Nat) : Prop :=
  t.defect d = { s.defect d with st := .pending } ∧ (∀ j, j ≠ d → t.defect j = s.defect j) ∧
  t.defects.queue = d :: s.defects.queue ∧ CountsMove s t 2 1

/-- A probe has ended with an outcome: its count, and the return to the prior state (R181). -/
def ProbeEnded (s t : State) (o : ProbeOutcome) : Prop :=
  (∀ st r, s.seq.prior = some (st, r) → t.seq.st = st ∧ t.seq.reason = r) ∧
  t.seq.phase = .noPhase ∧ t.seq.prior = none ∧ t.seq.probeOutcome = o ∧ t.seq.probeCount = s.seq.probeCount + 1

/-- The focus attempt has been aborted: one that was in progress shows in the last attempt word; the base height is kept,
and last Z becomes the Z that it had set, or stays (R138, log 32). -/
def AttemptAborted (s t : State) : Prop :=
  t.focus.attempt = none ∧ t.focus.base = s.focus.base ∧
  ∀ b, s.focus.attempt = some b →
    t.focus.settleTimer = none ∧ t.focus.sampleTimer = none ∧ t.focus.waitingFrame = none ∧
    t.focus.last.outcome = .aborted ∧ t.focus.last.detail = .noDetail ∧ t.focus.last.samples = b.sample ∧
    t.focus.last.err = b.err ∧
    (∀ pr, b.pred = some pr → t.focus.last.source = pr.source ∧ t.focus.last.clamped = pr.clamped) ∧
    t.focus.lastZ = (match b.z with | some z => ofSigned z | none => s.focus.lastZ)

/-- A revisit or a probe with what its phase has of a focus attempt: in FOCUS one in progress, in another phase none
(R131, R132). -/
def AttemptByPhase (s : State) : Prop :=
  (s.seq.phase = .focus ∧ ∃ b, s.focus.attempt = some b ∧ b.ending = false) ∨
  (s.seq.phase ≠ .focus ∧ s.focus.attempt = none)

/-- The arithmetic engine with its arbiter's choice made: busy, it goes on; free, it serves the sequencer place, whose
answer `answer` gives, before the commit place before the view place (R119). -/
def arbitrated (answer : Int → Int → FwdAnswer) (x : Transform) : Transform :=
  match x.service, x.seqPlace with
  | some _, _ => x
  | none, some (a, b) => { x with service := some (.forward (answer a b) false), seqPlace := none }
  | none, none =>
    if x.commitPlace then { x with service := some (.check false), commitPlace := false }
    else if x.viewPlace then { x with service := some .inverse, viewPlace := false }
    else x

/-- The interpolator with its arbiter's choice made, under the plan of `s`: busy, or with a step of a clearing untaken, it
goes on; free, it serves the sequencer place before the query place, from the nodes as they stand (R129). -/
def interpolating (s : State) (u : Focus) : Focus :=
  if u.service.isSome ∨ u.clearing ≠ 0 then u
  else match s.plan, u.seqPlace, u.attempt, u.queryPlace, u.query with
    | some p, true, some b, _, _ =>
      { u with service := some { forQuery := false, pred := predict { s with focus := u } p b.x b.y }, seqPlace := false }
    | some p, _, _, true, some (x, y) =>
      { u with service := some { forQuery := true, pred := predict { s with focus := u } p x y }, queryPlace := false }
    | _, _, _, _, _ => u

/-- FOCUS has begun for a site: the attempt is in progress, and its request is before the interpolator's arbiter (R129, R132,
R172). -/
def FocusBegun (s t : State) (kind : AttemptKind) (x y : Int) : Prop :=
  t.seq.phase = .focus ∧
  t.focus = interpolating s { s.focus with attempt := some { x := x, y := y, kind := kind }, seqPlace := true }

/-- The move record after the start of a move (R88, R90): its MOVE frame begins, abandoning one of an older move, or is held
behind a STOP frame that is being shifted, in the place of one that is held already (log 31). -/
def startedMotion (now : Nat) (x y : Int) (m : Motion) : Motion :=
  let bytes : List Byte := [0x10, m.frameSeq] ++ bigEndian (ofSigned x) ++ bigEndian (ofSigned y)
  let m1 := { m with
    active := some (x, y), move := .moving, stopCause := .noCause, moveTimer := some now, settleTimer := none }
  if m.frame.any (fun f => !f.move) then { m1 with heldMove := some (x, y) }
  else { m1 with
    frame := some { move := true, bytes := bytes ++ [byteSum bytes], began := now }
    frameSeq := m.frameSeq + 1, heldMove := none }

/-- A word holds the values of its fields (first bit, width, value), and 0 in every other bit (R206). -/
def LaidOut (w : Word) (fields : List (Nat × Nat × Nat)) : Prop :=
  (∀ f ∈ fields, getField w f.1 f.2.1 = f.2.2 % 2 ^ f.2.1) ∧
  ∀ i, i < 32 → (∀ f ∈ fields, i < f.1 ∨ f.1 + f.2.1 ≤ i) → w.getLsbD i = false

/-- The code of a value is its place in the order of the rule that lists the values (R206). -/
def codeIn {α : Type} [BEq α] (order : List α) (v : α) : Nat := order.idxOf v

end Sys2Proof.Machine
end

