-- ==== Sys2Proof/WellFormed.lean ====
section
/-! DEFINITION. Which commands a sender can form: the checks on operands that their types do not already make. -/

namespace Sys2Proof

/-- The byte enables are set in some lanes and not in all (R12). -/
def partialEnables (be : BitVec 4) : Bool := be != 0 && be != 15

/-- A host access is one word or an incrementing burst of 2, 4 or 8 (R1). -/
def burstLength (n : Nat) : Bool := n == 1 || n == 2 || n == 4 || n == 8

/-- The check byte of a robot frame: the sum of bytes 1 to 4 modulo 256 (R68). -/
def frameCheck (type tag a b : Byte) : Byte := type + tag + a + b

/-- Bad robot input is bad: a byte other than the start byte, a stop-bit error, or a frame whose check is wrong or
whose type is no reply (R69). -/
def badRobotInput : BadRobotInput → Bool
  | .byte b => b != 0xA5
  | .stopBitError => true
  | .frame type tag a b check =>
      check != frameCheck type tag a b || !(2 ≤ type.toNat && type.toNat ≤ 5)

/-- The well-formed commands. -/
def wellFormed : Instr → Bool
  | .forwardedAccess _ _ words _ => burstLength words.length
  | .partialTrigger _ be _ _ => partialEnables be
  | .ringRecordWrite _ be _ _ => be != 0
  | .hWordWrite _ be _ _ => be != 0
  | .sealedWrite _ _ be _ _ => be != 0
  | .sealList n _ => n != 0
  | .robotBadFrame bad => badRobotInput bad
  | _ => true

end Sys2Proof
end

