-- ==== Sys2Proof/Certificates/Slice0/Obligations.lean ====
section
/-! DEFINITION. The statements for the provers, chapter by chapter of the spec. -/

open Sys2Proof Sys2Proof.Machine

/-! ### The machine -/

/-- A step takes the command at the front of the queue of commands; on an empty queue the time base ticks (log 1 and
log 2: the model's form of "commands from outside"). -/
def Obligations.StepTakesTheFrontCommand : Prop :=
  (∀ (s : State) (c : Instr) (rest : List Instr), s.pending = c :: rest → step s = exec c { s with pending := rest }) ∧
  (∀ s : State, s.pending = [] → s.inReset = false → step s = .next { s with now := s.now + 1 })

/-- No command stops the machine, and no command touches the queue of waiting commands: `exec` always answers a next
state (the model's choice of log 1; the spec reports every error as a result code, an event or a fault report). -/
def Obligations.EveryCommandCompletes : Prop :=
  ∀ (c : Instr) (s : State), ∃ t, exec c s = .next t ∧ t.pending = s.pending

/-- The state after reset satisfies the invariant, every law of the steps, the plans, the handling tables, the revisit and
the write-back queue, and the law that the queue is current. -/
def Obligations.ResetSatisfiesInv : Prop :=
  Inv State.reset = true ∧ Lawful State.reset = true ∧ queueCurrent State.reset = true

/-- Every step keeps the invariant: memory in its canonical form (log 4), at most 16 queue entries and at most one for
any address (R16), and at most one of motion enable, interlock asserted and awaiting enable (R97 to R100). -/
def Obligations.EveryStepKeepsInv : Prop :=
  ∀ s t : State, Inv s = true → step s = .next t → Inv t = true

/-- Every step keeps the laws of the model's steps and of its plans: between commands no step is made or in hand, what is
untaken of a host request is the rest of its operations and ends with the request word's finish (R11), every number that a
step carries is in range, each plan held has its windows placed (R29), and the queue's entries lie at word addresses. The
waiting steps as tasks are the model's own (log 3, log 12). -/
def Obligations.EveryStepKeepsTheSteps : Prop :=
  ∀ s t : State, Lawful s = true → step s = .next t →
    stepsLawful t = true ∧ plansLawful t = true ∧ queueAligned t = true

/-- R43: every step keeps the law of the handling tables: each wafer is at one position, in transit with the one SENT slot,
or in doubt; no position is occupied and claimed at once; claims and reservations belong to the SENT and QUEUED slots
(log 34 for the send attempt that a MAP in progress holds back). -/
def Obligations.EveryStepKeepsTheTables : Prop :=
  ∀ s t : State, Lawful s = true → step s = .next t → tablesLawful t = true

/-- R131, R146, R152, R161: every step keeps the law of the revisit: an attempt that is not ending runs in FOCUS of a
revisit or a probe; at most one record is ACTIVE, and it is the current defect of a revisit in MOVE, SETTLE, FOCUS or
EXPOSE; the order queue holds each PENDING record of a sealed list once; the counts count the records; the list state and
the sequencer's state agree. -/
def Obligations.EveryStepKeepsTheRevisit : Prop :=
  ∀ s t : State, Lawful s = true → step s = .next t → revisitLawful t = true

/-- R10: every step keeps the queue current: for each H word under the plan in force, outside the ring's record area, the
value in its queued entry, or else in memory, is the table's value as the steps taken have left it. It is stated while the
windows in force are the plan's before the step, and for a front command that a sender can form. -/
def Obligations.EveryStepKeepsTheQueueCurrent : Prop :=
  ∀ s t : State, Lawful s = true → queueCurrent s = true → s.map = s.plan →
    (∀ c, s.pending.head? = some c → wellFormed c = true) → step s = .next t → queueCurrent t = true

/-! ### Chapter 1: the through path -/

/-- R2: an access outside every window reaches memory with its address, length, byte enables and data, and memory's data
reach the host unchanged; a burst past its 32-byte block is taken in two parts, the second at the next block (R1; log 22 at
the top of the address space). R3: of a write with no byte enable set nothing is issued, and it is finished at once. A write
burst of which only some words have a byte enable set is one access of its whole length: the model's choice between R2 and
R3 (log 18). -/
def Obligations.ForwardedAccessReachesMemory : Prop :=
  ∀ (s : State) (addr : Addr) (words : List (BitVec 4 × Word)) (more : Bool), Quiet s → portOpen s = true →
    let a := wordAligned addr.toNat
    let n := inFirstBlock a
    let b := (a + 4 * n) % 2 ^ 28
    let silent := (words.all fun e => e.1 == 0) = true
    let access (at_ : Nat) (ws : List (BitVec 4 × Word)) : MemAccess :=
      { addr := at_, write := false, words := (ws.map (·.1)).zip (readWords s.mem at_ ws.length) }
    (silent → exec (.forwardedAccess addr true words more) s = .next (s.finishWord more)) ∧
    (memoryOpen s = true → words ≠ [] → decodeAddr s.planBase s.map a = none →
      (words.drop n = [] ∨ decodeAddr s.planBase s.map b = none) →
      (¬silent → ∃ t, exec (.forwardedAccess addr true words more) s = .next t ∧
        t.mem = writeWords (writeWords s.mem a (words.take n)) b (words.drop n) ∧
        (words.drop n = [] → t.mAccess = some { addr := a, write := true, words := words }) ∧
        t = { s.finishWord more with mem := t.mem, mAccess := t.mAccess }) ∧
      (∃ t, exec (.forwardedAccess addr false words more) s = .next t ∧
        t.hData = readWords s.mem a (words.take n).length ++ readWords s.mem b (words.drop n).length ∧
        (words.drop n = [] → t.mAccess = some (access a words)) ∧
        (words.drop n ≠ [] → t.mAccess = some (access b (words.drop n))) ∧
        t = { s.finishWord more with hData := t.hData, mAccess := t.mAccess }))

/-- R6: a host write to a P word reaches memory under its byte enables; the block's copy takes the enabled lanes and
keeps the others, and every other copy is kept. Nothing else of the state changes: no event flag, no table value, no queue
entry, and the word is finished; but a write of a coefficient word also makes its load-cycle step on the transform status
words (R107, R108). The cases in which a copy is not taken (R6: a sealed record, the consumer word) have statements of their
own. R5: a spare word has no copy, and a write of it changes memory alone. R3: a write word with no byte enable set is
finished at once and has no effect of its class. -/
def Obligations.PWriteUpdatesItsCopy : Prop :=
  ∀ (s : State) (addr : Addr) (be : BitVec 4) (d : Word) (more : Bool), Quiet s → portOpen s = true →
    ∀ w, decodeAddr s.planBase s.map (wordAligned addr.toNat) = some w →
    (memoryOpen s = true → be ≠ 0 → wordClass s.map w = .p → w ≠ consumerWord →
      (∀ r k, k < 4 → w = recordWord r k → sealedRecord s r = false) →
      ∃ t, exec (.hostPWrite addr be d more) s = .next t ∧
        copyOf t w = mergeLanes be (copyOf s w) d ∧
        (∀ w', wordClass s.map w' = .p → w'.off % 4 = 0 → w' ≠ w → copyOf t w' = copyOf s w') ∧
        (∀ i, t.wafer i = { s.wafer i with id := (t.wafer i).id } ∧
          t.slot i = { s.slot i with waferCopy := (t.slot i).waferCopy, destCopy := (t.slot i).destCopy } ∧
          t.defect i = { s.defect i with
            x := (t.defect i).x, y := (t.defect i).y, info := (t.defect i).info, tag := (t.defect i).tag } ∧
          t.attr i = { s.attr i with threshold := (t.attr i).threshold }) ∧
        t = { s.hostDone (wordAligned addr.toNat) be d more with
          planU := { s.planU with copies := t.planU.copies }
          hand := { s.hand with wafers := t.hand.wafers, slots := t.hand.slots, declareWord := t.hand.declareWord
                                mapPattern := t.hand.mapPattern }
          motion := { s.motion with presetX := t.motion.presetX, presetY := t.motion.presetY }
          xform := { s.xform with copies := t.xform.copies, loadPos := t.xform.loadPos }
          focus := { s.focus with seedIndex := t.focus.seedIndex, seedValue := t.focus.seedValue
                                  queryX := t.focus.queryX, queryY := t.focus.queryY }
          defects := { s.defects with recs := t.defects.recs, quotas := t.defects.quotas, census := t.defects.census }
          seq := { s.seq with probeX := t.seq.probeX, probeY := t.seq.probeY }
          lot := { s.lot with attrs := t.lot.attrs, tagCopy := t.lot.tagCopy, expectedCopy := t.lot.expectedCopy
                              holdCopy := t.lot.holdCopy }
          report := { s.report with mask := t.report.mask }
          queue := t.queue } ∧
        StoresOnly s t (wordAligned addr.toNat) ∧
        (isCoefficient w = true → Publishes s t transformStatus) ∧
        (isCoefficient w = false → t.queue = s.queue ∧ t.xform.loadPos = s.xform.loadPos ∧
          ∀ w', wordClass s.map w' = .h → hWord t w' = hWord s w')) ∧
    (memoryOpen s = true → be ≠ 0 → wordClass s.map w = .spare → ∃ t, exec (.hostPWrite addr be d more) s = .next t ∧
      t = s.hostDone (wordAligned addr.toNat) be d more ∧ StoresOnly s t (wordAligned addr.toNat)) ∧
    exec (.hostPWrite addr 0 d more) s = .next (s.finishWord more) ∧
    exec (.hWordWrite addr 0 d more) s = .next (s.finishWord more) ∧
    exec (.partialTrigger addr 0 d more) s = .next (s.finishWord more) ∧
    exec (.sWordWrite addr 0 d more) s = .next (s.finishWord more)

/-- R8, R9: a host write to an H word puts the table's bytes in the enabled lanes of memory, reports OWNED_WRITE, and changes
neither the table nor the queue; of a word of the ring's record area it is not issued on the memory port at all. -/
def Obligations.HWriteIsSubstituted : Prop :=
  ∀ (s : State) (addr : Addr) (be : BitVec 4) (d : Word) (more : Bool), Quiet s → portOpen s = true → be ≠ 0 →
    ∀ w, decodeAddr s.planBase s.map (wordAligned addr.toNat) = some w → wordClass s.map w = .h →
    (memoryOpen s = true → isRingRecord w = false → ∃ t, exec (.hWordWrite addr be d more) s = .next t ∧
      t = { s.hostDone (wordAligned addr.toNat) be (hWord s w) more with
            report := { s.report with events := s.report.events ||| 1 } } ∧
      StoresOnly s t (wordAligned addr.toNat)) ∧
    (isRingRecord w = true → exec (.ringRecordWrite addr be d more) s = .next
      { s.finishWord more with report := { s.report with events := s.report.events ||| 1 } })

/-- R6, R10, R11, R13, R15: a host read of an H word is answered with the whole value of the entry queued for it, with any
number of entries waiting, and otherwise from memory; one that has found no entry at its turn contends for the memory port,
and looks again only when the arbiter grants it the port (R21, log 28). Of a posted-result word whose request is outstanding
it reports EARLY_READ. A P word, a spare word and a T word are answered from memory, and an S word by the part without the memory
port. What the S words hold: the stage counts (R82 to R84), the presence pattern (R53), the census (R157, R158), the lot
status signature (R196) and the event flags (R203). -/
def Obligations.HostReadsAreAnswered : Prop :=
  (∀ (s : State) (addr : Addr) (more : Bool), Quiet s → portOpen s = true →
    ∀ w, decodeAddr s.planBase s.map (wordAligned addr.toNat) = some w →
    let a := wordAligned addr.toNat
    let m := readWordAt s.mem a
    let noted := if earlyWord s w then { s.report with events := s.report.events ||| 4 } else s.report
    let answered (v : Word) (access : Option MemAccess) (r : Report) : Prop :=
      exec (.postedResultRead addr more) s = .next { s.finishWord more with hData := [v], mAccess := access, report := r }
    let contends := s.hostWaits = some (.hLook a)
    (wordClass s.map w = .h → ∀ v, entryFor s.queue a = some v → (¬contends ∨ memoryOpen s = true) →
      answered v s.mAccess noted) ∧
    (wordClass s.map w = .h → (contends ∨ entryFor s.queue a = none) → memoryOpen s = false →
      exec (.postedResultRead addr more) s = .next { s with hReady := false, hostWaits := some (.hLook a) }) ∧
    (wordClass s.map w = .h → entryFor s.queue a = none → memoryOpen s = true →
      answered m (some { addr := a, write := false, words := [(15, m)] }) noted) ∧
    ((wordClass s.map w = .p ∨ wordClass s.map w = .spare ∨ wordClass s.map w = .t) → memoryOpen s = true →
      answered m (some { addr := a, write := false, words := [(15, m)] }) s.report) ∧
    (wordClass s.map w = .s → answered (sWord s w) s.mAccess s.report)) ∧
  (∀ s : State,
    let c := s.defects.census
    let hit (d : Nat) : Bool :=
      let r := s.defect d
      decide (d < s.defects.n ∧ r.st ≠ .unlisted ∧ c.getLsbD (r.st.num - 1) = true ∧
        (c.getLsbD 12 = true → getField r.info 0 4 = getField c 8 4) ∧
        (c.getLsbD 20 = true → r.reviewClass.toNat = getField c 16 4))
    sWord s ⟨.stage, 0x000⟩ = s.motion.x.count ∧ sWord s ⟨.stage, 0x004⟩ = s.motion.y.count ∧
    LaidOut (sWord s ⟨.stage, 0x008⟩) [(0, 16, s.motion.x.faults)] ∧
    LaidOut (sWord s ⟨.stage, 0x00C⟩) [(0, 16, s.motion.y.faults)] ∧
    LaidOut (sWord s ⟨.handling, 0x450⟩) ((List.range 5).flatMap fun k =>
      [(4 * k, 1, (s.hand.pres.getLsbD k).toNat), (4 * k + 1, 1, (s.compared (50 + k)).toNat),
       (4 * k + 2, 1, (s.debounceTimer k).isSome.toNat)]) ∧
    sWord s ⟨.defect, 0x084⟩ = BitVec.ofNat 32 ((List.range s.defects.n).filter hit).length ∧
    (∀ k, k < 128 → ∀ b, b < 32 → (sWord s ⟨.defect, 0x100 + 4 * k⟩).getLsbD b = hit (32 * k + b)) ∧
    sWord s ⟨.lot, 0x018⟩ = (if s.lot.tripped then 0x00005AA5 else 0x0000A55A) ∧
    sWord s ⟨.lot, 0x01C⟩ = s.report.events.setWidth 32)

/-- R12: a write to a T word with some but not all byte enables set goes to memory and reports PARTIAL_TRIGGER; no
request is formed, and every result word keeps its value. R11: a value that names no request of its word is refused with
UNKNOWN: its result words take the code, memory takes the value, the word is finished, and the result of every other
request word is kept. R13, R203: a host write to an S word goes to memory and has no other effect, but that a write to the
event word clears each flag written as 1 in an enabled lane. -/
def Obligations.WritesOfRequestAndStatusWords : Prop :=
  (∀ (s : State) (addr : Addr) (be : BitVec 4) (d : Word) (more : Bool), Quiet s → memoryOpen s = true → be ≠ 0 →
    ∀ w, decodeAddr s.planBase s.map (wordAligned addr.toNat) = some w →
    (wordClass s.map w = .t → be ≠ 15 → ∃ t, exec (.partialTrigger addr be d more) s = .next t ∧
      t = { s.hostDone (wordAligned addr.toNat) be d more with
            report := { s.report with events := s.report.events ||| 2 } } ∧
      StoresOnly s t (wordAligned addr.toNat)) ∧
    (wordClass s.map w = .t → namesRequest w d = false → ∃ t, exec (.unknownRequest addr d more) s = .next t ∧
      resultOf t w = .unknown ∧ Publishes s t (resultWords w) ∧
      (∀ w', wordClass s.map w' = .t → w'.off % 4 = 0 → w' ≠ w → resultOf t w' = resultOf s w') ∧
      t.hReady = true ∧ t.hostBusy = false ∧ t.mem = writeWordAt s.mem (wordAligned addr.toNat) 15 d ∧
      StoresOnly s t (wordAligned addr.toNat)) ∧
    (wordClass s.map w = .s → w ≠ eventWord → ∃ t, exec (.sWordWrite addr be d more) s = .next t ∧
      t = s.hostDone (wordAligned addr.toNat) be d more ∧ StoresOnly s t (wordAligned addr.toNat))) ∧
  (∀ (s : State) (be : BitVec 4) (d : Word) (more : Bool), ∀ a, Takes s eventWord a → be ≠ 0 →
    ∃ t, exec (.eventWrite be d more) s = .next t ∧
      (∀ i, i < 9 → t.report.events.getLsbD i = (s.report.events.getLsbD i && !(d.getLsbD i && be.getLsbD (i / 8)))) ∧
      t = { s.hostDone a be d more with report := { s.report with events := t.report.events } } ∧
      StoresOnly s t a)

/-- R17: a step is taken exactly when the queue has as many free entries as the step has words without a queued entry;
it then queues for each of its words the value that the word shows, in place or at the tail, and touches no other entry.
Made while another step waits, it is taken exactly when all its words have queued entries (log 12 for the steps that keep
their order nevertheless). R18: a step that is not taken begins to wait behind those that wait already, and until it is
taken no table changes; the first waiting step is not taken while the queue has no room for it, and one that shows a change
made at once is taken as soon as there is room. R19: a drain takes the head entry out of the queue and writes its whole
value to memory, and is not granted while a host access that needs the memory port waits and can be granted it (R21,
log 28). -/
def Obligations.StepsAreTakenAndDrained : Prop :=
  (∀ (op : StepOp) (s : State) (behind : Bool),
    let t0 := runOp op { s with named := [], sequel := [] }
    let u := if behind then State.supersede op s t0 else t0
    let es := wordEntries u u.named
    let new := es.filter fun e => !hasEntry s.queue e.1
    (behind = false → ((tryStep behind op s).isSome = true ↔ s.queue.length + new.length ≤ 16)) ∧
    (behind = true → adopting s = false → keepsOrder op s = false →
      ((tryStep behind op s).isSome = true ↔ s.queue.length ≤ 16 ∧ new = [])) ∧
    ∀ t, tryStep behind op s = some t →
      (∀ e ∈ s.queue, hasEntry es e.1 = false → e ∈ t.queue) ∧
      (∀ e ∈ es, (∀ f ∈ es, f.1 = e.1 → f.2 = e.2) → entryFor t.queue e.1 = some e.2) ∧
      (∀ a, hasEntry t.queue a = (hasEntry s.queue a || hasEntry es a)) ∧
      ∃ tail, t.queue.map (·.1) = s.queue.map (·.1) ++ tail) ∧
  (∀ (s : State) (op : StepOp), s.made = [] → [] ∉ s.waiting →
    tryStep (someWaits s) op { s with made := [[]] } = none →
    (s.emit op).settle = { s with waiting := s.waiting ++ [[op]] }) ∧
  (∀ s : State, s.inReset = false → s.made = [] → [] ∉ s.waiting →
    ∀ op, (s.waiting.headD []).head? = some op →
    let s0 : State := { s with waiting := (s.waiting.headD []).tail :: s.waiting.tail }
    (tryStep false op s0 = none → exec .waitingStepTaken s = .next s) ∧
    (∀ cs, op = .publish cs → s.waiting.headD [] = [op] → s.sequel = [] → s.named = [] → (cs.map (·.word)).Nodup →
      Room s cs.length → exec .waitingStepTaken s = .next
        { s with waiting := s.waiting.tail
                 queue := putEntries s.queue (wordEntries { s with waiting := s.waiting.tail } (cs.map (·.word))) })) ∧
  (∀ s : State, Quiet s → ∀ e, s.queue.head? = some e →
    let contends := s.hostWaits = some .memory ∨ s.hostWaits = some .loadCycle ∨
      (∃ a, s.hostWaits = some (.hLook a)) ∨ ∃ a, s.hostWaits = some (.hRead a) ∧ entryFor s.queue a = none
    (contends → memoryOpen s = true → exec .writebackDrain s = .next s) ∧
    (¬contends ∨ memoryOpen s = false → ∃ t, exec .writebackDrain s = .next t ∧
      readWordAt t.mem e.1 = e.2 ∧ StoresOnly s t e.1 ∧
      t = { s with queue := s.queue.tail, mem := t.mem
                   mAccess := some { addr := e.1, write := true, words := [(15, e.2)] } }))

/-! ### Chapter 2: plan and start-up -/

/-- R24: the assertion of RESET_N discards the queue and the waiting steps, leaves the map with the plan block alone,
makes every copy of a P word zero and keeps memory; that no command at all, a pin event or a timer among them, has an effect
until the release is the model's choice (log 24: pins are not followed in reset). R57, R81, R102, R122, R143, R159, R184,
R197, R205: what the release of RESET_N leaves in every block, with the pins as sampled, value by value; memory is kept, and
start-up is about to read the plan block (R25, R32). The whole state is then `State.reset` with the sampled pins and with
memory, the waiting commands and the count of free values kept: the values there that no rule gives are the model's (log 8),
the stage link's frame sequence number among them (log 9). -/
def Obligations.ResetClearsEveryBlock : Prop :=
  (∀ s : State, ∃ t, exec .resetAssert s = .next t ∧
    t.inReset = true ∧ t.queue = [] ∧ t.waiting = [] ∧ t.map = none ∧ t.mem = s.mem ∧ t.hReady = false ∧
    t.hostBusy = false ∧ t.hostMore = false ∧ t.hostWaits = none ∧
    (∀ w, wordClass s.map w = .p → copyOf t w = 0) ∧
    (∀ c, c ≠ .resetAssert → (∀ pins, c ≠ .resetRelease pins) → exec c t = .next t)) ∧
  (∀ (s : State) (pins : Pins), ∃ t, exec (.resetRelease pins) s = .next t ∧
    t.queue = [] ∧ t.waiting = [] ∧ t.map = none ∧ t.plan = none ∧ t.inReset = false ∧
    t.hostBusy = false ∧ t.hostMore = false ∧ t.hostWaits = none ∧ (∀ w, wordClass s.map w = .p → copyOf t w = 0) ∧
    t.planBase = [0x0FFFF000, 0x07FFF000, 0x03FFF000, 0x01FFF000].getD pins.planSel.toNat 0 ∧
    t.planU.standing = .starting ∧ t.planU.work = .reading 0 ∧ t.planU.adoptions = 0 ∧
    (∀ w, t.wafer w = { id := 0, place := .unknown, progress := .unmapped, suspect := false, member := false
                        visited := 0, lotTag := 0 }) ∧
    (∀ p, p < 50 → t.posn p = { occupant := none, uncertain := false, claim := none, reservation := none }) ∧
    (∀ k, k < 5 → t.posn (50 + k) =
      { occupant := none, uncertain := pins.pres.getLsbD k, claim := none, reservation := none }) ∧
    (∀ k, (t.slot k).st = .free ∧ (t.slot k).acked = false ∧ (t.slot k).reason = .noReason ∧ (t.slot k).goResult = .ok ∧
      (t.slot k).tag = 0 ∧ (t.slot k).robotCode = 0) ∧ t.sentSlot = none ∧
    (∀ k, t.debounceTimer k = none) ∧ t.hand.queue = [] ∧ t.hand.held = false ∧ t.hand.result = .ok ∧
    t.hand.stage = none ∧ t.hand.prior = none ∧ t.hand.tagCounter = 0 ∧ t.hand.ackTimer = none ∧
    t.hand.doneTimer = none ∧ t.hand.rx = .hunt ∧
    t.motion.x = { count := 0, phase := pins.xPhase, faults := 0 } ∧
    t.motion.y = { count := 0, phase := pins.yPhase, faults := 0 } ∧
    t.motion.enable = false ∧ t.motion.interlock = pins.interlock ∧ t.motion.awaiting = false ∧
    t.motion.active = none ∧ t.motion.move = .idle ∧ t.motion.stopCause = .noCause ∧ t.motion.moveTimer = none ∧
    t.motion.settleTimer = none ∧ t.motion.shadow = none ∧ t.motion.trigCount = 0 ∧ t.motion.result = .ok ∧
    t.motion.frame.map (·.bytes) = some [0x11, 0, 0, 0, 0, 0, 0, 0, 0, 0, 0x11] ∧
    t.xform.inForce = none ∧ t.xform.loadPos = .at 0 ∧ t.xform.seqNo = 0 ∧ t.xform.pendingCommit = none ∧
    t.xform.commitResult = .noResult ∧ t.xform.devElement = 0 ∧ t.xform.devMagnitude = 0 ∧ t.xform.viewResult = .ok ∧
    t.xform.view = none ∧ t.xform.results = { waferX := 0, waferY := 0, xCount := 0, yCount := 0, number := 0, seqNo := 0 } ∧
    t.xform.service = none ∧ t.xform.seqPlace = none ∧ t.xform.commitPlace = false ∧ t.xform.viewPlace = false ∧
    (∀ n, t.node n = { height := 0, valid := false, count := 0 }) ∧ t.focus.base = 0 ∧ t.focus.lastZ = 0 ∧
    t.focus.last.outcome = .noOutcome ∧ lastAttemptValue t.focus.last = 0 ∧ t.focus.attempt = none ∧
    t.focus.setpoint = none ∧ t.focus.query = none ∧ t.focus.queryZ = 0 ∧ queryDetail t.focus.queryPred = 0 ∧
    t.focus.querySeq = 0 ∧ t.focus.queryNearest = 0 ∧ t.focus.ctlResult = .ok ∧ t.focus.queryResult = .ok ∧
    t.defects.list = .empty ∧ t.defects.n = 0 ∧ t.defects.sealResult = .ok ∧ t.defects.queue = [] ∧
    (∀ d, t.defect d = { st := .unlisted, attempts := 0, reviewClass := 0, outcome := .noOutcome, acceptedZ := 0, rank := 0
                         disposition := .noResult }) ∧
    (∀ k, t.stateCount k = 0 ∧ t.imagedCount k = 0) ∧
    t.seq.st = .idle ∧ t.seq.phase = .noPhase ∧ t.seq.reason = .noReason ∧ NoFlags t.seq ∧ t.seq.prior = none ∧
    t.seq.current = none ∧ t.seq.verdictTimer = none ∧ t.seq.staging = none ∧ t.seq.outstanding = none ∧
    t.seq.result = .ok ∧ t.seq.vResult = .noResult ∧ t.seq.probeOutcome = .noOutcome ∧ t.seq.probeCount = 0 ∧
    t.lot.st = .noLot ∧ t.lot.tag = 0 ∧ t.lot.expected = 0 ∧ t.lot.joined = 0 ∧ t.lot.tripped = false ∧
    t.lot.firstTrip = 0 ∧ t.lot.closeKind = .noClose ∧ t.lot.short = false ∧ t.lot.result = .ok ∧
    (∀ i, t.attr i = { value := 0, wafer := 0, threshold := 0, tripped := false, first := false }) ∧
    t.lot.sumLot = 0 ∧ t.lot.cntLot = 0 ∧ t.lot.sumWafer = 0 ∧ t.lot.cntWafer = 0 ∧
    (∀ c, t.lot.hist.get 0 c = 0) ∧ t.lot.deferred = none ∧
    t.report.producer = 0 ∧ t.report.unread = 0 ∧ t.report.stalls = 0 ∧ t.report.seqNo = 0 ∧
    t.report.faultSlot = none ∧ t.report.handSlot = none ∧ t.report.seqSlot = none ∧ t.report.lotSlot = none ∧
    (∀ k, (t.faultEntry k).pending = false ∧ (t.faultEntry k).repeats = 0) ∧ t.report.events = 0 ∧
    t.report.coalesce = .stopped ∧ t.irq = false ∧
    t = { State.reset with
      pending := s.pending, mem := s.mem, openCount := s.openCount, planSel := pins.planSel
      hand := { State.reset.hand with pres := pins.pres, positions := t.hand.positions }
      motion := { State.reset.motion with
        x := { State.reset.motion.x with phase := pins.xPhase }, y := { State.reset.motion.y with phase := pins.yPhase }
        interlock := pins.interlock }
      focus := { State.reset.focus with fsettled := pins.fsettled } })

/-- R26: when the read of a plan word completes, its copy takes the value read; the words after the plan words are read
and copied nowhere, and the reads go on in ascending offset (R32). R21: a read is not granted while the queue holds an
entry, nor while a host access waits for the memory port and can be granted it (log 28). R34: a start-up whose plan is refused leaves the part BARE, with no plan and
no working window, the refusal in the plan status and the plan block's H words in the queue. -/
def Obligations.PlanReadsAreTaken : Prop :=
  ∀ s : State, Quiet s →
    (s.queue ≠ [] ∨ (memoryOpen s = true ∧ s.hostWaits ≠ none) → exec .planRead s = .next s) ∧
    (∀ k, k < 63 → s.planU.work = .reading k → s.queue = [] → (s.hostWaits = none ∨ memoryOpen s = false) →
      ∃ t, exec .planRead s = .next t ∧
        (∀ j, t.planU.copies.get 0 j
          = if j = k ∧ k < 35 then readWordAt s.mem (s.planBase + 4 * k) else s.planU.copies.get 0 j) ∧
        t = { s with
          mAccess := some { addr := s.planBase + 4 * k, write := false
                            words := [(15, readWordAt s.mem (s.planBase + 4 * k))] }
          planU := { s.planU with copies := t.planU.copies, work := .reading (k + 1) } }) ∧
    (s.planU.work = .reading 63 → s.planU.standing = .starting → s.plan = none → s.queue = [] →
      ∀ r off, validatePlan s.planBase s.planU.copies = .refused r off →
      ∃ t, exec .planRead s = .next t ∧
        t.planU = { s.planU with standing := .bare, work := .idle, validation := r, offending := off, clampCount := 0,
                                 firstClamp := 0 } ∧
        Publishes s t (planStatusWords ++ (List.range 9).map capabilityWord) ∧
        t = { s with mAccess := t.mAccess, planU := t.planU, queue := t.queue })

/-- R27, R28, R29: what validation comes to, for any copies of the plan words: the refusals in their order, each with the
offset that is recorded, and otherwise the clamped values, the clamp count and the first clamp offset. A valid plan has
every value in its range, every base 4 KiB-aligned, every window inside the address space, and no two of the seven windows
sharing a byte. -/
def Obligations.PlansAreValidated : Prop :=
  (∀ (planBase : Nat) (copies : Table Word),
    let w (k : Nat) : Nat := (copies.get 0 k).toNat
    let z (k : Nat) : Int := (copies.get 0 k).toInt
    let base (k : Nat) : Nat := w k % 2 ^ 28
    let ranges : List (Nat × Nat × Nat) :=
      [(8, 16, 1024), (9, 1, 64), (10, 1, 1000), (11, 1, 3), (12, 1, 8), (13, 1, 512), (14, 10, 2000), (25, 1, 65535),
       (26, 0, 65535), (27, 10, 10000), (28, 1, 500), (29, 1, 100), (30, 100, 60000), (31, 10, 1000),
       (32, 1000, 120000), (33, 5, 500), (34, 100000, 50000000)]
    let c (k lo hi : Nat) : Nat := max lo (min hi (w k))
    let nominal := clampInt (z 18) (z 19) (z 20)
    let p : Plan :=
      { handlingBase := base 1, stageBase := base 2, focusBase := base 3, defectBase := base 4, lotBase := base 5
        ringBase := base 6, capacity := w 7 / 32 * 32, ringLength := c 8 16 1024, coalesceCount := c 9 1 64
        coalesceTime := c 10 1 1000, maxAttempts := c 11 1 3, focusSamples := c 12 1 8, focusGain := c 13 1 512
        focusTolerance := c 14 10 2000, pitch := w 15, x0 := z 16, y0 := z 17, zMin := z 18, zMax := z 19
        nominalZ := nominal, travelXMin := z 21, travelXMax := z 22, travelYMin := z 23, travelYMax := z 24
        arrivalWindow := c 25 1 65535, settleTime := c 26 0 65535, moveTimeout := c 27 10 10000
        focusSettleTimeout := c 28 1 500, sampleTimeout := c 29 1 100, verdictTimeout := c 30 100 60000
        robotAckTimeout := c 31 10 1000, robotDoneTimeout := c 32 1000 120000, presenceDebounce := c 33 5 500
        bandHeight := c 34 100000 50000000 }
    let clamped : List Nat :=
      (if w 7 % 32 = 0 then [] else [0x1C])
        ++ (ranges.filter fun e => decide (w e.1 < e.2.1 ∨ e.2.2 < w e.1)).map (fun e => 4 * e.1)
        ++ (if nominal = z 20 then [] else [0x50])
    let runsPast (i : Nat) : Bool :=
      decide (2 ^ 28 < (winExtent p (workingWindows.getD i .plan)).1 + (winExtent p (workingWindows.getD i .plan)).2)
    let shares (i : Nat) : Bool :=
      ((planBase, 256) :: (workingWindows.take i).map (winExtent p)).any (overlap (winExtent p (workingWindows.getD i .plan)))
    validatePlan planBase copies =
      if copies.get 0 0 ≠ 0x4C4B504C then .refused .signature 0x00
      else match [1, 2, 3, 4, 5, 6].find? fun k => w k % 4096 != 0 with
        | some k => .refused .align (4 * k)
        | none =>
          if w 7 < 256 ∨ 4096 < w 7 then .refused .capacity 0x1C
          else if w 15 < 1000000 ∨ 32000000 < w 15 then .refused .pitch 0x3C
          else if z 22 < z 21 then .refused .limits 0x54
          else if z 24 < z 23 then .refused .limits 0x5C
          else if z 19 < z 18 then .refused .limits 0x48
          else match (List.range 6).find? fun i => runsPast i || shares i with
            | some i => .refused (if runsPast i then .align else .overlap) (4 * (i + 1))
            | none => .valid p clamped.length (clamped.min?.getD 0)) ∧
  (∀ (planBase : Nat) (copies : Table Word) (p : Plan) (clamps first : Nat),
    validatePlan planBase copies = .valid p clamps first →
    planInRange p ∧ clamps ≤ 35 ∧
    (∀ w ∈ workingWindows, (winExtent p w).1 % 4096 = 0 ∧ (winExtent p w).1 + (winExtent p w).2 ≤ 2 ^ 28) ∧
    (extents planBase p).Pairwise fun a b => ∀ x, ¬((a.1 ≤ x ∧ x < a.1 + a.2) ∧ (b.1 ≤ x ∧ x < b.1 + b.2)))

/-- R35: the commit code is refused with BUSY while a commit or open work stands, and is otherwise accepted; either way
the outcome is one step on the plan status words. R36, R20: the first drain of an accepted commit is over as soon as the
queue holds no entry and no step waits, and not before; after the re-read a valid plan awaits the adoption moment, which
waits for the queue, the view and the query. R37: a plan refused by validation, and open work found at the adoption moment
(WORK_OPEN), leave the plan in force or bare mode as it was, with one status step. -/
def Obligations.CommitIsTaken : Prop :=
  (∀ (s : State) (more : Bool), ∀ a, Takes s commitWord a →
    (¬(s.planU.standing = .committing ∨ WorkOpen s) → ∃ t, exec (.commitPlan more) s = .next t ∧
      t = { s.hostDone a 15 0x434F4D54 more with
            planU := { s.planU with commitResult := .ok, standing := .committing, work := .draining },
            queue := t.queue } ∧
      Publishes s t planStatusWords ∧ StoresOnly s t a) ∧
    (s.planU.standing = .committing ∨ WorkOpen s → ∃ t, exec (.commitPlan more) s = .next t ∧
      t = { s.hostDone a 15 0x434F4D54 more with
            planU := { s.planU with commitResult := .busy }, queue := t.queue } ∧
      Publishes s t planStatusWords ∧ StoresOnly s t a)) ∧
  (∀ s : State, Inv s = true → s.inReset = false → s.made = [] → [] ∉ s.waiting → s.planU.work = .draining →
    (s.queue = [] ∧ s.waiting = [] → exec .queueEmptyRelease s = .next { s with planU := { s.planU with work := .reading 0 } }) ∧
    (¬(s.queue = [] ∧ s.waiting = []) → exec .queueEmptyRelease s = .next s)) ∧
  (∀ s : State, Quiet s → s.planU.standing = .committing →
    let refused (c : Instr) (r : PlanResult) (off : Nat) : Prop := ∃ t, exec c s = .next t ∧
      t = { s with
        mAccess := t.mAccess, queue := t.queue
        planU := { s.planU with
          standing := if s.plan = none then .bare else .adopted, work := .idle, validation := r, offending := off
          clampCount := 0, firstClamp := 0 } } ∧
      Publishes s t planStatusWords
    (s.planU.work = .reading 63 → s.queue = [] → (s.hostWaits = none ∨ memoryOpen s = false) →
      (∀ r off, validatePlan s.planBase s.planU.copies = .refused r off → refused .planRead r off) ∧
      (∀ p clamps first, validatePlan s.planBase s.planU.copies = .valid p clamps first →
        ∃ t, exec .planRead s = .next t ∧
          t = { s with mAccess := t.mAccess, planU := { s.planU with work := .awaiting p clamps first } })) ∧
    (∀ p clamps first, s.planU.work = .awaiting p clamps first →
      (s.queue ≠ [] ∨ s.xform.view ≠ none ∨ s.focus.query ≠ none → exec .adoptionMoment s = .next s) ∧
      (s.queue = [] → s.xform.view = none → s.focus.query = none → WorkOpen s →
        refused .adoptionMoment .workOpen 0)))

/-- R33, R38, R39: an adoption, at start-up or of a commit, puts the plan into force in one event, clears what the table of
R38 clears and keeps what it keeps, and changes nothing else of the state; a host access in progress keeps its map (R4). R103,
R122, R143, R159, R184, R197, R205: what it leaves in every block, field by field; of the focus map the heights are kept, of
the report unit the sequence number, the fault slot and the fault pending set, from which the first pending kind is staged
where the slot was empty (R202). A debounce that the new time has already ended is judged at the moment; that its timer stops
then is the model's choice (log 25). The adoption steps fill the queue, the plan status words first, and the rest wait; the
last of them ends start-up. The model's choices: the order of the adoption steps (log 11), and zero in every field of the
transform unit, the focus unit, the sequencer, the defect list, the lot and the report unit to which no rule gives a value
(log 8). -/
def Obligations.AdoptionClearsAndKeeps : Prop :=
  (∀ (s : State) (p : Plan) (clamps first : Nat), Quiet s → s.queue = [] →
    let elapsed (k : Nat) : Prop := ∃ t0, s.debounceTimer k = some t0 ∧ t0 + 1000 * p.presenceDebounce ≤ s.now
    let adopted (c : Instr) (standing : Standing) (access : Option MemAccess) : Prop := ∃ t, exec c s = .next t ∧
      t.map = (if s.hostMore || s.hostBusy then s.map else some p) ∧
      (∀ w, t.wafer w = if s.hand.stage = some w ∧ ((s.wafer w).progress = .aligned ∨ (s.wafer w).progress = .reviewing)
        then { s.wafer w with progress := .loaded } else s.wafer w) ∧
      (∀ k, k < 5 → (elapsed k → t.debounce k = .elapsed) ∧ (¬elapsed k → t.debounce k = s.debounce k)) ∧
      t.xform.service = (match s.xform.service with
        | some (.forward f _) => some (.forward f true)
        | some (.check _) => some (.check true)
        | o => o) ∧
      (∀ n, t.node n = { s.node n with valid := false, count := 0 }) ∧
      (s.report.faultSlot ≠ none ∨ (∀ k, k < 5 → (s.faultEntry k).pending = false) →
        t.report.faultSlot = s.report.faultSlot ∧ t.report.pendingFaults = s.report.pendingFaults) ∧
      (∀ k, k < 5 → s.report.faultSlot = none → (s.faultEntry k).pending = true →
        (∀ j, j < k → (s.faultEntry j).pending = false) →
        let e := s.faultEntry k
        t.report.faultSlot = some {
          kind := 4, qualifier := k, wafer := s.hand.stage.getD 63, w1 := BitVec.ofNat 32 e.place
          w2 := field 0 16 e.repeats + field 16 16 e.code.toNat, w3 := e.time } ∧
        ∀ j, t.faultEntry j = if j = k then { e with pending := false, repeats := 0 } else s.faultEntry j) ∧
      t.irq = false ∧ t.queue.take 4 = wordEntries t planStatusWords ∧ t.queue.length = 16 ∧
      t.waiting.head? = some [.adoption 13] ∧
      t = { s with
        plan := some p, map := t.map, mAccess := access, queue := t.queue, waiting := t.waiting
        planU := { s.planU with standing := standing, work := .idle, validation := .accepted, offending := 0,
                                clampCount := clamps, firstClamp := first, adoptions := s.planU.adoptions + 1 }
        hand := { s.hand with wafers := t.hand.wafers, debounce := t.hand.debounce }
        motion := { s.motion with shadow := none, presetX := 0, presetY := 0 }
        xform := {
          copies := [], inForce := none, loadPos := .at 0, pendingCommit := none, commitResult := .noResult, seqNo := 0
          devElement := 0, devMagnitude := 0, viewResult := .ok, view := none, results := {}, service := t.xform.service
          seqPlace := none, commitPlace := false, viewPlace := false }
        focus := {
          nodes := t.focus.nodes, base := ofSigned p.nominalZ, lastZ := ofSigned p.nominalZ, last := {}, attempt := none
          settleTimer := none, sampleTimer := none, setpoint := s.focus.setpoint, frame := s.focus.frame
          waitingFrame := none, fsettled := s.focus.fsettled, hsample := s.focus.hsample
          service := s.focus.service.map fun v => { v with discard := true }
          seqPlace := false, queryPlace := false, clearing := 1, learns := [], query := none, queryZ := 0
          queryPred := {}, querySeq := 0, queryNearest := 0, seedIndex := 0, seedValue := 0, queryX := 0, queryY := 0
          ctlResult := .ok, queryResult := .ok }
        defects := {}, seq := {}, lot := {}
        report := {
          faultSlot := t.report.faultSlot, handSlot := none, seqSlot := none, lotSlot := none, producer := 0, unread := 0
          stalls := 0, consumer := 0, seqNo := s.report.seqNo, pendingFaults := t.report.pendingFaults, events := 0
          mask := 0, coalesce := .stopped, posted := [] } }
    (s.planU.work = .awaiting p clamps first → s.planU.standing = .committing →
      (∃ copies, validatePlan s.planBase copies = .valid p clamps first) →
      s.xform.view = none → s.focus.query = none → ¬WorkOpen s → adopted .adoptionMoment .adopted s.mAccess) ∧
    (s.planU.work = .reading 63 → s.planU.standing = .starting →
      validatePlan s.planBase s.planU.copies = .valid p clamps first → adopted .planRead .starting (some {
        addr := s.planBase + 252, write := false, words := [(15, readWordAt s.mem (s.planBase + 252))] }))) ∧
  (∀ (s : State) (k : Nat), s.inReset = false → s.made = [] → s.sequel = [] → s.named = [] →
    s.waiting = [[.adoption k]] → k + 1 = adoptCount → s.queue.length < 16 → s.focus.clearing = 1 →
    s.focus.learns = [] → s.focus.seqPlace = false → s.focus.queryPlace = false →
    ∃ t, exec .waitingStepTaken s = .next t ∧
      t.planU.standing = (if s.planU.standing = .starting then .adopted else s.planU.standing) ∧
      t = { s with
        waiting := [], queue := t.queue, planU := { s.planU with standing := t.planU.standing }
        focus := { s.focus with clearing := 0 } } ∧
      Publishes s t [nodeWord 288 1])

/-! ### Chapter 3: wafers, positions and presence -/

/-- R47: a MAP is refused with BUSY while a mapped wafer of the carrier is away from its slot, or a slot of the carrier is
claimed or reserved. R48: a MAP that is not refused takes the carrier's slots in ascending order, as their pattern flags
say; at the end of an event the slots below some `j` are as their flags say, the others are as they were, and the next step
waits, or the result is OK and the word is finished. -/
def Obligations.MapTakesTheSlotsInOrder : Prop :=
  ∀ (s : State) (c : Carrier),
    let base := match c with | .a => 0 | .b => 25
    let passed (i j : Nat) (pattern : Word) (t : State) : Prop :=
      i ≤ j ∧ j ≤ 25 ∧
      (∀ k, i ≤ k → k < j → pattern.getLsbD k = true →
        t.wafer (base + k) = { s.wafer (base + k) with
          place := .pos (base + k), progress := .new, suspect := false, visited := 0 } ∧
        t.posn (base + k) = { s.posn (base + k) with occupant := some (base + k), uncertain := false }) ∧
      (∀ k, i ≤ k → k < j → pattern.getLsbD k = false →
        t.wafer (base + k) = { id := (s.wafer (base + k)).id } ∧
        t.posn (base + k) = { s.posn (base + k) with occupant := none, uncertain := false }) ∧
      (∀ w, (w < base + i ∨ base + j ≤ w) → t.wafer w = s.wafer w ∧ t.posn w = s.posn w) ∧
      ((t.waiting = [[.mapSlot c j pattern, .finishHost]] ∧ t.hostBusy = true ∧ t.hand.result = s.hand.result) ∨
       (j = 25 ∧ t.waiting = [] ∧ t.hostBusy = false ∧ t.hReady = true ∧ t.hand.result = .ok))
    (∀ (other : Word) (more : Bool), ∀ a, Takes s handlingControl a →
      let busy := ∃ i, i < 25 ∧ (((s.wafer (base + i)).progress ≠ .unmapped ∧ (s.wafer (base + i)).place ≠ .pos (base + i))
        ∨ (s.posn (base + i)).claim ≠ none ∨ (s.posn (base + i)).reservation ≠ none)
      (busy → ∃ t, exec (.mapCarrier c other more) s = .next t ∧ t.hand = { s.hand with result := .busy } ∧
        t.report = s.report ∧ Publishes s t [handlingStatus] ∧ StoresOnly s t a) ∧
      (¬busy → ∃ t, exec (.mapCarrier c other more) s = .next t ∧ StoresOnly s t a ∧
        ∃ j, 1 ≤ j ∧ passed 0 j s.hand.mapPattern t)) ∧
    (∀ (i : Nat) (pattern : Word), Inv s = true → s.inReset = false → s.made = [] → s.sequel = [] → s.named = [] →
      s.waiting = [[.mapSlot c i pattern, .finishHost]] → s.hostBusy = true →
      (i < 25 → Room s 3 → ∃ t, exec .waitingStepTaken s = .next t ∧ t.mem = s.mem ∧ ∃ j, i < j ∧ passed i j pattern t) ∧
      (i = 25 → Room s 1 → ∃ t, exec .waitingStepTaken s = .next t ∧ t.mem = s.mem ∧
        (∀ w, t.wafer w = s.wafer w ∧ t.posn w = s.posn w) ∧ t.waiting = [] ∧ t.hostBusy = false ∧ t.hReady = true ∧
        t.hand.result = .ok ∧ Publishes s t [handlingStatus]))

/-- R54, R55, R56: the checks of DECLARE and DECLARE_EMPTY in their order, each refused with its code in one step on the
handling status word. An accepted DECLARE that is no declared load and no declared departure puts the tables as the rule
says, with result OK, and an accepted DECLARE_EMPTY clears the mark of an empty position and keeps its reservation. -/
def Obligations.DeclaresPutTheTables : Prop :=
  ∀ (s : State) (other : Word) (more : Bool), ∀ a, Takes s handlingControl a →
    let w := getField s.hand.declareWord 0 8
    let p := getField s.hand.declareWord 8 8
    let lost := (s.wafer w).progress = .unmapped ∨ (s.wafer w).suspect = true
    let taken := (s.posn p).occupant ≠ none ∨ (s.posn p).claim ≠ none
    let refused (c : Instr) (code : Nat) (r : Code) : Prop := ∃ t, exec c s = .next t ∧
      t = { s.hostDone a 15 (handlingRequest other code) more with hand := { s.hand with result := r }, queue := t.queue } ∧
      Publishes s t [handlingStatus] ∧ StoresOnly s t a
    ((50 ≤ w ∨ (55 ≤ p ∧ p ≠ 255)) → refused (.declare other more) 2 .range) ∧
    (w < 50 → (p < 55 ∨ p = 255) →
      (¬lost → refused (.declare other more) 2 .state) ∧
      (lost → p < 50 → p ≠ w → refused (.declare other more) 2 .range) ∧
      (lost → (50 ≤ p ∨ p = w) →
        (p ≠ 255 → taken → refused (.declare other more) 2 .state) ∧
        (p = 52 → ¬taken → s.hand.stage ≠ none → s.hand.stage ≠ some w → refused (.declare other more) 2 .state) ∧
        ((p = 255 ∨ ¬taken) → p ≠ 52 → s.hand.stage = some w → (s.seq.st = .running ∨ s.seq.st = .probing) →
          refused (.declare other more) 2 .state) ∧
        (p ≠ 255 → ¬taken → ((p = 52 ∧ s.hand.stage = some w) ∨ (p ≠ 52 ∧ s.hand.stage ≠ some w)) →
          ∃ t, exec (.declare other more) s = .next t ∧
            t.wafer w = { s.wafer w with
              place := .pos p, suspect := false
              progress := if (s.wafer w).progress = .unmapped then .new else (s.wafer w).progress
              visited := if (s.wafer w).progress = .unmapped then 0 else (s.wafer w).visited } ∧
            t.posn p = { s.posn p with occupant := some w, uncertain := false } ∧
            (∀ v, v ≠ w → t.wafer v = s.wafer v) ∧ (∀ q, q ≠ p → t.posn q = s.posn q) ∧
            t.hand = { s.hand with wafers := t.hand.wafers, positions := t.hand.positions, debounce := t.hand.debounce
                                   result := .ok } ∧
            Publishes s t [waferStateWord w, positionWord p, handlingStatus] ∧
            t = { s.hostDone a 15 (handlingRequest other 2) more with hand := t.hand, queue := t.queue } ∧
            StoresOnly s t a) ∧
        (p = 255 → s.hand.stage ≠ some w → ∃ t, exec (.declare other more) s = .next t ∧
            t.wafer w = { id := (s.wafer w).id, visited := (s.wafer w).visited } ∧
            (∀ v, v ≠ w → t.wafer v = s.wafer v) ∧
            t.hand = { s.hand with wafers := t.hand.wafers, result := .ok } ∧
            t = { s.hostDone a 15 (handlingRequest other 2) more with hand := t.hand, queue := t.queue } ∧
            StoresOnly s t a))) ∧
    (55 ≤ p → refused (.declareEmpty other more) 3 .range) ∧
    (p < 55 → (taken ∨ (p = 52 ∧ s.hand.stage ≠ none)) → refused (.declareEmpty other more) 3 .state) ∧
    (p < 55 → ¬taken → ¬(p = 52 ∧ s.hand.stage ≠ none) → ∃ t, exec (.declareEmpty other more) s = .next t ∧
      t.posn p = { s.posn p with uncertain := false } ∧ (∀ q, q ≠ p → t.posn q = s.posn q) ∧
      t.hand = { s.hand with positions := t.hand.positions, debounce := t.hand.debounce, result := .ok } ∧
      Publishes s t [positionWord p, handlingStatus] ∧
      t = { s.hostDone a 15 (handlingRequest other 3) more with hand := t.hand, queue := t.queue } ∧ StoresOnly s t a)

/-- R79, R187, R190: a load, by a DECLARE of a lost wafer onto ST with no stage wafer (R55) or by a DONE at ST (R73): the
wafer becomes the stage wafer, LOADED with visited count 0; while a lot is OPEN a wafer that is no member joins it, takes
its tag and is counted; and the wafer values of the attributes are zeroed, one step after another, the last of them behind a
full queue. A DECLARE is finished after them. How many of those steps the queue takes in the event (10 or 13 of the wafer
values at a DECLARE, 8 or 11 at a DONE, behind the step of a join) rests on the model's choices of log 3 (each wafer value in
a step of its own) and log 11 (their order). -/
def Obligations.LoadsMakeTheStageWafer : Prop :=
  ∀ s : State, Quiet s → s.queue = [] →
    let loaded (w : Nat) (before : Progress) (j : Nat) (last : List StepOp) (t : State) : Prop :=
      let joins := s.lot.st = .opened ∧ (s.wafer w).member = false
      t.hand.stage = some w ∧ t.hand.prior = some before ∧
      t.wafer w = { s.wafer w with
        place := .pos 52, suspect := (t.wafer w).suspect, progress := .loaded, visited := 0
        member := if joins then true else (s.wafer w).member, lotTag := if joins then s.lot.tag else (s.wafer w).lotTag } ∧
      (∀ v, v ≠ w → t.wafer v = s.wafer v) ∧
      (t.posn 52).occupant = some w ∧
      (∀ i, t.attr i = if i < j then { s.attr i with wafer := 0 } else s.attr i) ∧
      t.lot = { s.lot with
        joined := if joins then min 65535 (s.lot.joined + 1) else s.lot.joined, attrs := t.lot.attrs
        sumWafer := if 8 < j then 0 else s.lot.sumWafer, cntWafer := if 8 < j then 0 else s.lot.cntWafer } ∧
      t.waiting = [((List.range 16).drop j).map StepOp.zeroWafer ++ last]
    (∀ p, s.plan = some p → ∀ (other : Word) (more : Bool), ∀ a, Takes s handlingControl a →
      let w := getField s.hand.declareWord 0 8
      getField s.hand.declareWord 8 8 = 52 → w < 50 →
      ((s.wafer w).progress = .unmapped ∨ (s.wafer w).suspect = true) → s.hand.stage = none →
      (s.posn 52).occupant = none → (s.posn 52).claim = none →
      ∃ t, exec (.declare other more) s = .next t ∧
        loaded w (if (s.wafer w).progress = .unmapped then .new else (s.wafer w).progress)
          (if s.lot.st = .opened ∧ (s.wafer w).member = false then 10 else 13) [.finishHost] t ∧
        (t.wafer w).suspect = false ∧ t.hand.result = .ok ∧ t.hostBusy = true ∧ t.motion = s.motion ∧ t.seq = s.seq ∧
        t.report = s.report ∧ StoresOnly s t a) ∧
    (∀ p, s.plan = some p → ∀ (k src : Nat) (a b : Byte), s.hand.rx = .hunt → s.sentSlot = some k →
      (s.slot k).source = .pos src → (s.slot k).dest = 52 → src ≠ 52 → src < 55 → (s.slot k).wafer < 50 →
      ∃ t, exec (.robotDone (s.slot k).tag a b) s = .next t ∧
        loaded (s.slot k).wafer (s.wafer (s.slot k).wafer).progress
          (if s.lot.st = .opened ∧ (s.wafer (s.slot k).wafer).member = false then 8 else 11) [] t ∧
        t.slot k = { s.slot k with st := .done, acked := false } ∧ (t.posn src).claim = none ∧
        (t.posn 52).claim = none ∧ (t.report.handSlot.map (·.kind)) = some 3 ∧ t.motion = s.motion ∧ t.seq = s.seq ∧
        t.mem = s.mem)

/-- R80 with R94, R113, R121, R122, R143, R159, R160 and R184: a departure of the stage wafer, by a DONE away from ST or by
a DECLARE. The wafer's progress becomes REVIEWED, PARTLY or what it was before its load; every block clears what belongs to
the wafer, at once but for the steps that the queue has no room for (log 3), among them the motion unit's; a commit in its
check ends STALE; and for a wafer with visited defects the hand-over that counts WAFERS_REVIEWED waits behind them, so that no
lot figure has changed yet. Each of the steps that wait, when it is taken: the load-cycle position becomes 0, the targets empty
with the move IDLE, the base height and last Z the nominal Z with no last attempt, and the nodes invalid with their heights
kept; behind them a declared departure is completed, for ABSENT by the DECLARE's own later step, in which the wafer becomes
UNMAPPED and no member, its id and visited count kept, and the control word is finished (R54, R55). The order of a departure's
steps is the model's choice (log 11), and so are the zero fields of the sequencer to which no rule gives a value (log 8), that
no prior progress is recorded afterwards (log 35), and that the clearing which holds the interpolator back is the 37 node
steps, counted in `clearing`, and not the step of the base height, which leaves that count alone (log 36). Stated for a plan
whose windows are placed (R29), which every step keeps. -/
def Obligations.DepartureClearsTheStage : Prop :=
  (∀ s : State, Quiet s → s.queue = [] → ∀ w, s.hand.stage = some w →
    let departed (t : State) : Prop :=
      t.hand.stage = none ∧ t.hand.prior = none ∧
      (t.wafer w).progress = (if 0 < (s.wafer w).visited
        then (if s.stateCount 1 = 0 then .reviewed else .partly) else s.hand.prior.getD .new) ∧
      (∀ v, v ≠ w → t.wafer v = s.wafer v) ∧
      t.defects.list = .empty ∧ t.defects.n = 0 ∧ t.defects.queue = [] ∧ (∀ k, t.stateCount k = 0) ∧
      (∀ c, t.imagedCount c = 0) ∧ (∀ d, t.defect d = { s.defect d with
        st := .unlisted, attempts := 0, reviewClass := 0, outcome := .noOutcome, acceptedZ := 0, rank := 0 }) ∧
      t.seq = { probeX := s.seq.probeX, probeY := s.seq.probeY } ∧
      t.motion = s.motion ∧ .departMotion ∈ untaken t ∧ t.lot = s.lot ∧
      (0 < (s.wafer w).visited → .count 0 (some w) (decide (s.lot.st = .opened) && (s.wafer w).member) ∈ untaken t) ∧
      t.xform.inForce = none ∧ t.xform.pendingCommit = none ∧ t.xform.seqPlace = none ∧ t.xform.commitPlace = false ∧
      t.xform.commitResult = (if s.xform.pendingCommit = none then s.xform.commitResult else .stale) ∧
      t.xform.copies = s.xform.copies ∧ t.xform.seqNo = s.xform.seqNo ∧ t.xform.view = s.xform.view ∧
      (∀ b, t.focus.attempt = some b → b.ending = true) ∧ t.focus.setpoint = s.focus.setpoint ∧
      t.focus.nodes = s.focus.nodes ∧ t.focus.clearing = s.focus.clearing + 37 ∧
      (∀ k, k < 37 → .clearNodes k false ∈ untaken t) ∧ .departFocus ∈ untaken t ∧
      t.xform.loadPos = s.xform.loadPos ∧ (∃ cs, .departTransform cs ∈ untaken t) ∧ t.report.seqSlot = s.report.seqSlot
    (∀ p, s.plan = some p → planPlaced s.planBase p = true → ∀ (k : Nat) (a b : Byte), s.hand.rx = .hunt → s.sentSlot = some k →
      (s.slot k).source = .pos 52 → (s.slot k).dest ≠ 52 → (s.slot k).dest < 55 → (s.slot k).wafer = w →
      ∃ t, exec (.robotDone (s.slot k).tag a b) s = .next t ∧ departed t ∧
        t.slot k = { s.slot k with st := .done, acked := false } ∧
        t.wafer w = { s.wafer w with place := .pos (s.slot k).dest, progress := (t.wafer w).progress } ∧
        (t.posn (s.slot k).dest).occupant = some w ∧ (t.posn (s.slot k).dest).claim = none ∧
        (t.posn 52).claim = none ∧ t.mem = s.mem ∧ (t.report.handSlot.map (·.kind)) = some 3) ∧
    (∀ p, s.plan = some p → planPlaced s.planBase p = true → ∀ (other : Word) (more : Bool), ∀ a, Takes s handlingControl a →
      let q := getField s.hand.declareWord 8 8
      getField s.hand.declareWord 0 8 = w → w < 50 → (s.wafer w).suspect = true → (s.wafer w).progress ≠ .unmapped →
      s.seq.st ≠ .running → s.seq.st ≠ .probing →
      (q < 55 → (50 ≤ q ∨ q = w) → q ≠ 52 → (s.posn q).occupant = none → (s.posn q).claim = none →
        ∃ t, exec (.declare other more) s = .next t ∧ departed t ∧
          t.wafer w = { s.wafer w with place := .pos q, suspect := false, progress := (t.wafer w).progress } ∧
          (t.posn q).occupant = some w ∧ (t.posn q).uncertain = false ∧ t.hand.result = .ok ∧ t.hostBusy = true ∧
          [.departureEnd, .finishHost] ∈ t.waiting ∧ StoresOnly s t a) ∧
      (q = 255 → ∃ t, exec (.declare other more) s = .next t ∧ departed t ∧
          t.wafer w = { s.wafer w with progress := (t.wafer w).progress } ∧ t.hostBusy = true ∧
          [.departureEnd, .declareStep w 255, .finishHost] ∈ t.waiting ∧ StoresOnly s t a))) ∧
  (∀ s : State, Inv s = true → s.inReset = false → s.made = [] → s.sequel = [] → s.named = [] →
    ∀ p, s.plan = some p →
    let taken (op : StepOp) (ws : List WordRef) (f : State → State) : Prop :=
      s.waiting = [[op]] → Room s ws.length → ∃ t, exec .waitingStepTaken s = .next t ∧
        t = f { s with waiting := [], queue := t.queue } ∧ Publishes s t ws
    (∀ cs, taken (.departTransform cs) transformStatus fun u => { u with xform := { s.xform with loadPos := .at 0 } }) ∧
    taken .departMotion stageStatus (fun u => { u with motion := { s.motion with
      active := none, shadow := none, move := .idle, stopCause := .noCause, moveTimer := none, settleTimer := none } }) ∧
    taken .departFocus [baseHeightWord, lastZWord, lastAttemptWord, loopStatusWord] (fun u => { u with focus := { s.focus with
      base := ofSigned p.nominalZ, lastZ := ofSigned p.nominalZ, last := {} } }) ∧
    (∀ k, k < 37 → s.waiting = [[.clearNodes k false]] → Room s 8 →
      (1 < s.focus.clearing ∨ (s.focus.learns = [] ∧ s.focus.seqPlace = false ∧ s.focus.queryPlace = false)) →
      let named (n : Nat) : Prop := 8 * k ≤ n ∧ n < 8 * k + 8 ∧ n < 289
      ∃ t, exec .waitingStepTaken s = .next t ∧
        (∀ n, named n → t.node n = { s.node n with valid := false, count := 0 }) ∧
        (∀ n, ¬named n → t.node n = s.node n) ∧
        t = { s with
          waiting := [], queue := t.queue
          focus := { s.focus with nodes := t.focus.nodes, clearing := s.focus.clearing - 1 } } ∧
        Publishes s t (((List.range' (8 * k) 8).filter fun n => decide (n < 289)).map fun n => nodeWord n 1)) ∧
    (s.waiting = [[.departureEnd, .finishHost]] → exec .waitingStepTaken s = .next
      { s with waiting := [], hostBusy := false, hReady := true, map := if s.hostMore then s.map else s.plan }) ∧
    (∀ w, w < 50 →
      (s.waiting = [[.departureEnd, .declareStep w 255, .finishHost]] →
        hasEntry s.queue ((wordAddr s.planBase s.plan (waferStateWord w)).getD 0) = false →
        exec .waitingStepTaken s = .next { s with waiting := [[.declareStep w 255, .finishHost]] }) ∧
      (s.waiting = [[.declareStep w 255, .finishHost]] → Room s 3 → ∃ t, exec .waitingStepTaken s = .next t ∧
        (∀ v, t.wafer v = if v = w then {
            id := (s.wafer w).id, place := .unknown, progress := .unmapped, suspect := false, member := false
            visited := (s.wafer w).visited, lotTag := 0 }
          else s.wafer v) ∧
        t = { s with
          hand := { s.hand with wafers := t.hand.wafers, result := .ok }, waiting := [], queue := t.queue
          hostBusy := false, hReady := true, map := if s.hostMore then s.map else s.plan } ∧
        Publishes s t ([waferStateWord w] ++ (if (s.wafer w).lotTag = 0 then [] else [waferTagWord w])
          ++ [handlingStatus])))) ∧
  (∀ s : State, someWaits s = true → tryStep true .departureEnd s = none)

/-- R49, R50: a change of a sensor starts the debounce timer of a compared position that enters mismatch and stops that
of one that leaves it; no table changes and nothing is reported. R51: a mismatch that persists makes the position UNCERTAIN
and empty, its wafer SUSPECT with place UNKNOWN, and the handling unit HELD, in one step that names the position word, the
handling status word and the wafer's state word; a PRESENCE fault is made pending with the position and what was found (R202),
and counted among PRESENCE_FAULTS, for an OPEN lot too (R187, R194). At ST, with no revisit and no probe in progress, that is
all; in SELECT and TARGET the sequencer makes a stop request and is PAUSED(FAULT), in RESOLVE and in a staging wait it sets its
fault flag with a stop request (R179; the phases with an ACTIVE defect and a probe are in the statement of the aborts): that
it has done so before the fault is counted is the model's choice (log 37). While the step has to wait no table changes, and
the timer does not run (log 25). The clock is at the expiry (log 16). -/
def Obligations.PresenceIsDebounced : Prop :=
  (∀ (s : State) (k : Fin 5) (level : Bool), Quiet s →
    ∃ t, exec (.presenceChange k level) s = .next t ∧
      t.hand.pres.getLsbD k = level ∧ (∀ i : Fin 5, i ≠ k → t.hand.pres.getLsbD i = s.hand.pres.getLsbD i) ∧
      (∀ i, i < 5 →
        let v := s.posn (50 + i)
        let compared := v.uncertain = false ∧ v.claim = none ∧ (3 ≤ i → ∀ j, j < 4 → (s.slot j).st ≠ .sent)
        let differs := compared ∧ v.occupant.isSome ≠ t.hand.pres.getLsbD i
        (differs → t.debounce i = (if s.debounce i = .idle then .running s.now else s.debounce i)) ∧
        (¬differs → t.debounce i = .idle)) ∧
      t = { s with hand := { s.hand with pres := t.hand.pres, debounce := t.hand.debounce } }) ∧
  (∀ (s : State) (k : Fin 5), Quiet s → ∀ t0, s.debounceTimer k = some t0 → s.compared (50 + k.val) = true →
    let clock := max s.now (t0 + 1000 * (match s.plan with | none => 500 | some p => p.presenceDebounce))
    let missing := (s.posn (50 + k.val)).occupant.isSome
    let doubted (t : State) : Prop :=
      t.debounceTimer k = none ∧
      t.posn (50 + k.val) = { s.posn (50 + k.val) with occupant := none, uncertain := true } ∧
      (∀ q, q ≠ 50 + k.val → t.posn q = s.posn q) ∧
      (∀ w, t.wafer w = if (s.posn (50 + k.val)).occupant = some w
        then { s.wafer w with suspect := true, place := .unknown } else s.wafer w) ∧
      FaultMade s t 2 (50 + k.val) (if missing then 0 else 1) ∧
      t = { s with
        now := clock, seq := t.seq, motion := t.motion, queue := t.queue
        hand := { s.hand with wafers := t.hand.wafers, positions := t.hand.positions, debounce := t.hand.debounce
                              held := true }
        lot := { s.lot with attrs := t.lot.attrs, tripped := t.lot.tripped, firstTrip := t.lot.firstTrip }
        report := { s.report with faultSlot := t.report.faultSlot, pendingFaults := t.report.pendingFaults
                                  events := t.report.events, lotSlot := t.report.lotSlot } }
    let stopped (t : State) : Prop := StopRequested clock s.motion t.motion ∧
      (moving s.motion = true → t.motion.move = .stopped ∧ t.motion.stopCause = .request) ∧
      (moving s.motion = false → t.motion.move = s.motion.move)
    (Room s 10 → (k.val = 2 → ¬SeqEngaged s) → ∃ t, exec (.debounceExpiry k) s = .next t ∧ doubted t ∧
      FaultCounted s t 12 ∧ t.motion = s.motion ∧
      Publishes s t ([positionWord (50 + k.val), handlingStatus]
        ++ (match (s.posn (50 + k.val)).occupant with | some w => [waferStateWord w] | none => []) ++ faultWords s 12)) ∧
    (Room s 12 → k.val = 2 → s.seq.st = .running → (s.seq.phase = .select ∨ s.seq.phase = .target) →
      let q : Sequencer := { s.seq with
        st := .paused, phase := .noPhase, reason := .fault, sel := none, current := none, target := none
        verdictTimer := none, targetWait := false, selecting := false
        outstanding := s.seq.outstanding.map Purpose.discardUnlessPrefetch }
      ∃ t, exec (.debounceExpiry k) s = .next t ∧ doubted t ∧ stopped t ∧ t.seq = q ∧
        FaultCounted { s with seq := q } t 12) ∧
    (Room s 12 → k.val = 2 → ((s.seq.st = .running ∧ s.seq.phase = .resolve) ∨
        (s.seq.st = .paused ∧ s.seq.reason = .ring)) → s.focus.attempt = none →
      ∃ t, exec (.debounceExpiry k) s = .next t ∧ doubted t ∧ stopped t ∧
        FaultCounted { s with seq := { s.seq with fFault := true } } t 12) ∧
    (s.queue.length = 16 → s.plan ≠ none → hasEntry s.queue ((wordAddr s.planBase s.plan handlingStatus).getD 0) = false →
      exec (.debounceExpiry k) s = .next { s with
        now := clock, waiting := [[.presence (50 + k.val) missing]]
        hand := { s.hand with debounce := s.hand.debounce.set k.val .elapsed } }))

/-! ### Chapter 4: transfers and the robot link -/

/-- R61: the checks of a GO in their order, each refused with its GO result in one step on the slot status word. R62: an
accepted GO queues the slot with its transfer, reserves the destination, and joins the tail of the queue. -/
def Obligations.GoIsJudged : Prop :=
  ∀ (s : State) (k : BitVec 2) (more : Bool), ∀ a, Takes s (goWord k.toNat) a →
    let w := (s.slot k.toNat).waferCopy.toNat
    let d := (s.slot k.toNat).destCopy.toNat
    let v := s.wafer w
    let p := s.posn d
    let inSlot (x : Nat) : Prop :=
      ∃ j, j < 4 ∧ ((s.slot j).st = .queued ∨ (s.slot j).st = .sent) ∧ (s.slot j).wafer = x
    let sentTo := ∃ j, s.sentSlot = some j ∧ (s.slot j).dest = d
    let aside := s.seq.st = .idle ∨ s.seq.st = .ready ∨ s.seq.st = .done
    let refused (r : Code) : Prop := ∃ t, exec (.go k more) s = .next t ∧
      t.slot k.toNat = { s.slot k.toNat with goResult := r } ∧ (∀ j, j ≠ k.toNat → t.slot j = s.slot j) ∧
      t = { s.hostDone a 15 1 more with hand := { s.hand with slots := t.hand.slots }, queue := t.queue } ∧
      Publishes s t [slotWord k.toNat] ∧ StoresOnly s t a
    let open_ := (s.slot k.toNat).st = .queued ∨ (s.slot k.toNat).st = .sent
    let bad := 50 ≤ w ∨ v.progress = .unmapped ∨ v.suspect = true
    let badDest := 55 ≤ d ∨ v.place = .pos d
    let reserved := p.reservation ≠ none ∨ sentTo
    let occupied := ∃ o, p.occupant = some o ∧ ¬inSlot o
    (open_ → refused .busy) ∧
    (¬open_ → bad → refused .badWafer) ∧
    (¬open_ → ¬bad → inSlot w → refused .waferBusy) ∧
    (¬open_ → ¬bad → ¬inSlot w →
      (badDest → refused .badDest) ∧
      (¬badDest → d < 50 → d ≠ w → refused .notHome) ∧
      (¬badDest → (50 ≤ d ∨ d = w) →
        (p.uncertain = true → refused .destUncertain) ∧
        (p.uncertain = false → reserved → refused .destReserved) ∧
        (p.uncertain = false → ¬reserved → occupied → refused .destOccupied) ∧
        (p.uncertain = false → ¬reserved → ¬occupied → v.place = .pos 52 → ¬aside → refused .stageBusy) ∧
        (p.uncertain = false → ¬reserved → ¬occupied → (v.place ≠ .pos 52 ∨ aside) →
          ∃ t, exec (.go k more) s = .next t ∧
            t.slot k.toNat = { s.slot k.toNat with
              st := .queued, acked := false, reason := .noReason, goResult := .ok, tag := 0, robotCode := 0, wafer := w
              dest := d } ∧
            t.posn d = { p with reservation := some k.toNat } ∧
            (∀ j, j ≠ k.toNat → t.slot j = s.slot j) ∧ (∀ q, q ≠ d → t.posn q = s.posn q) ∧
            t.hand = { s.hand with slots := t.hand.slots, positions := t.hand.positions
                                   queue := s.hand.queue ++ [k.toNat] } ∧
            Publishes s t [slotWord k.toNat, positionWord d] ∧
            t = { s.hostDone a 15 1 more with hand := t.hand, queue := t.queue } ∧ StoresOnly s t a)))

/-- R76: RESUME_HANDLING is refused with STATE in HELD while a queued slot reserves an UNCERTAIN non-slot position, and
otherwise leaves the unit RUNNING with OK. R77: CANCEL takes a QUEUED slot out of the queue, the others keeping their
order, and drops its reservation; in any other state it is refused with STATE. -/
def Obligations.HandlingIsResumedAndCancelled : Prop :=
  (∀ (s : State) (other : Word) (more : Bool), ∀ a, Takes s handlingControl a →
    let doubt := ∃ i k, i < 5 ∧ (s.posn (50 + i)).uncertain = true ∧ (s.posn (50 + i)).reservation = some k ∧
      (s.slot k).st = .queued
    (s.hand.held = true → doubt → ∃ t, exec (.resumeHandling other more) s = .next t ∧
      t = { s.hostDone a 15 (handlingRequest other 4) more with
            hand := { s.hand with result := .state }, queue := t.queue } ∧
      Publishes s t [handlingStatus] ∧ StoresOnly s t a) ∧
    (¬(s.hand.held = true ∧ doubt) → ∃ t, exec (.resumeHandling other more) s = .next t ∧
      t = { s.hostDone a 15 (handlingRequest other 4) more with
            hand := { s.hand with held := false, result := .ok, headWaits := s.hand.headWaits && !s.hand.held },
            queue := t.queue } ∧
      Publishes s t [handlingStatus] ∧ StoresOnly s t a)) ∧
  (∀ (s : State) (k : BitVec 2) (other : Word) (more : Bool), ∀ a, Takes s handlingControl a →
    ((s.slot k.toNat).st = .queued → ∃ t, exec (.cancel k other more) s = .next t ∧
      t.slot k.toNat = { s.slot k.toNat with st := .failed, reason := .cancelled } ∧
      t.posn (s.slot k.toNat).dest = { s.posn (s.slot k.toNat).dest with reservation := none } ∧
      (∀ j, j ≠ k.toNat → t.slot j = s.slot j) ∧ (∀ p, p ≠ (s.slot k.toNat).dest → t.posn p = s.posn p) ∧
      (∀ w, t.wafer w = s.wafer w) ∧ t.hand.queue = s.hand.queue.erase k.toNat ∧ t.hand.result = .ok ∧
      t.report = s.report ∧ StoresOnly s t a) ∧
    ((s.slot k.toNat).st ≠ .queued → ∃ t, exec (.cancel k other more) s = .next t ∧
      t.hand = { s.hand with result := .state } ∧ t.report = s.report ∧ Publishes s t [handlingStatus] ∧
      StoresOnly s t a))

/-- R64, R65: a send attempt is made while the handling unit is RUNNING with no SENT slot, INTERLOCK released, its staging
slot empty, a slot queued, and no wait of the head for the sequencer standing; its checks in their order end the transfer
FAILED with a TRANSFER report, or let it wait while the sequencer works on the stage wafer, or send it. R66: a send claims
both positions, takes the wafer in transit, marks the slot SENT with the tag counter's tag, passes the ORDER frame to the
robot (R68) and starts the ACK timer. An attempt on a wafer outside the carrier is made while a MAP is in progress too (R48,
R64), and with the queue full it waits behind the MAP's step; only a wafer of the carrier that is being mapped is not sent
out of its slot meanwhile, because none of that carrier's slots is claimed then (R47, R48, log 34). -/
def Obligations.SendAttemptsAreMade : Prop :=
  (∀ (s : State) (c : Carrier) (i : Nat) (pattern : Word), Inv s = true → s.inReset = false → s.made = [] → s.sequel = [] →
    s.named = [] → s.waiting = [[.mapSlot c i pattern, .finishHost]] → s.hand.held = false → s.sentSlot = none →
    s.motion.interlock = false → s.report.handSlot = none → s.hand.headWaits = false →
    ∀ k, s.hand.queue.head? = some k →
    let base := match c with | .a => 0 | .b => 25
    let w := (s.slot k).wafer
    (w < base ∨ base + 25 ≤ w → s.queue.length = 16 → s.plan ≠ none → k < 4 → (s.wafer w).place ≠ .pos 52 →
      hasEntry s.queue ((wordAddr s.planBase s.plan (slotWord k)).getD 0) = false →
      exec .sendAttempt s = .next { s with waiting := s.waiting ++ [[.sendAttempt]] }) ∧
    (base ≤ w → w < base + 25 → (s.wafer w).place = .pos w → (s.wafer w).progress ≠ .unmapped →
      (s.wafer w).suspect = false → (s.posn (s.slot k).dest).uncertain = false →
      (s.posn (s.slot k).dest).occupant = none → exec .sendAttempt s = .next s)) ∧
  ∀ s : State, Quiet s →
    let aside := s.seq.st = .idle ∨ s.seq.st = .ready ∨ s.seq.st = .done
    let may := s.hand.held = false ∧ s.sentSlot = none ∧ s.motion.interlock = false ∧ s.report.handSlot = none ∧
      s.hand.queue ≠ [] ∧ (s.hand.headWaits = false ∨ aside)
    (¬may → exec .sendAttempt s = .next s) ∧
    (may → Room s 4 → ∀ k, s.hand.queue.head? = some k →
      let d := (s.slot k).dest
      let v := s.wafer (s.slot k).wafer
      let lost := v.progress = .unmapped ∨ v.suspect = true
      let fails (r : FailReason) : Prop := ∃ t, exec .sendAttempt s = .next t ∧
        t.slot k = { s.slot k with st := .failed, reason := r, source := v.place } ∧
        (∀ j, j ≠ k → t.slot j = s.slot j) ∧
        t.posn d = { s.posn d with reservation := none } ∧ (∀ p, p ≠ d → t.posn p = s.posn p) ∧
        t.hand = { s.hand with slots := t.hand.slots, positions := t.hand.positions, queue := s.hand.queue.tail
                               headWaits := false } ∧
        (∃ r1, t.report.handSlot = some r1 ∧ t.report = { s.report with handSlot := some r1 } ∧ r1.kind = 3 ∧ r1.qualifier = r.num ∧
          r1.wafer = (s.slot k).wafer) ∧
        t = { s with hand := t.hand, report := t.report, queue := t.queue } ∧ Publishes s t [slotWord k, positionWord d]
      (lost → fails .badWafer) ∧
      (¬lost → (s.posn d).uncertain = true → fails .destUncertain) ∧
      (¬lost → (s.posn d).uncertain = false → (s.posn d).occupant ≠ none → fails .destBlocked) ∧
      (¬lost → (s.posn d).uncertain = false → (s.posn d).occupant = none → v.place = .pos 52 → ¬aside →
        exec .sendAttempt s = .next { s with hand := { s.hand with headWaits := true } }) ∧
      (∀ src, v.place = .pos src → src ≠ d → ¬lost → (s.posn d).uncertain = false → (s.posn d).occupant = none →
        (src ≠ 52 ∨ aside) → ∃ t, exec .sendAttempt s = .next t ∧
        t.posn src = { s.posn src with occupant := none, claim := some k } ∧
        t.posn d = { s.posn d with reservation := none, claim := some k } ∧
        (∀ p, p ≠ src → p ≠ d → t.posn p = s.posn p) ∧
        (∀ w, t.wafer w = if w = (s.slot k).wafer then { s.wafer w with place := .inTransit } else s.wafer w) ∧
        t.slot k = { s.slot k with st := .sent, acked := false, tag := s.hand.tagCounter, source := .pos src } ∧
        (∀ j, j ≠ k → t.slot j = s.slot j) ∧
        t.hand.queue = s.hand.queue.tail ∧ t.hand.tagCounter = s.hand.tagCounter + 1 ∧
        t.hand.ackTimer = some s.now ∧
        (let bytes : List Byte := [0x01, s.hand.tagCounter, BitVec.ofNat 8 src, BitVec.ofNat 8 d]
         t.hand.orderFrame = some ([0xA5] ++ bytes ++ [byteSum bytes])) ∧
        t = { s with hand := t.hand, queue := t.queue } ∧
        Publishes s t [positionWord src, positionWord d, waferStateWord (s.slot k).wafer, slotWord k]))

/-- R71, R72, R74, R75: the replies ACK, NAK and FAULT matched to the SENT slot, and the expiries of the ACK and DONE timers.
A NAK and the ACK timer restore the wafer to its source; a FAULT and the DONE timer lose it, with both positions in doubt;
each ends the transfer FAILED with a TRANSFER report, and all but a NAK leave the unit HELD with a TRANSFER fault, pending or
staged, whose detail is the destination, the failure reason and the robot code (R75, R202). The clock of an expiry is
log 16's. -/
def Obligations.RepliesAndTimeoutsEndTheTransfer : Prop :=
  ∀ (s : State) (a b : Byte), Quiet s → Room s 9 → s.lot.st ≠ .opened → ∀ k, s.sentSlot = some k →
    ∀ src, (s.slot k).source = .pos src → src ≠ (s.slot k).dest →
    let w := (s.slot k).wafer
    let d := (s.slot k).dest
    let others (t : State) : Prop := (∀ j, j ≠ k → t.slot j = s.slot j) ∧
      (∀ p, p ≠ src → p ≠ d → t.posn p = s.posn p) ∧ (∀ v, v ≠ w → t.wafer v = s.wafer v) ∧
      t.hand.ackTimer = none ∧ t.hand.doneTimer = none ∧ t.hand.queue = s.hand.queue ∧ t.hand.stage = s.hand.stage ∧
      (t.report.handSlot.map (·.kind)) = some 3 ∧ (t.report.handSlot.map (·.wafer)) = some w ∧
      t.mem = s.mem ∧ t.motion = s.motion ∧ t.seq = s.seq ∧ t.defects = s.defects ∧ t.focus = s.focus
    let restored (r : FailReason) (code : Byte) (t : State) : Prop :=
      t.slot k = { s.slot k with st := .failed, acked := false, reason := r, robotCode := code } ∧
      t.posn src = { s.posn src with occupant := some w, claim := none } ∧
      t.posn d = { s.posn d with claim := none } ∧ t.wafer w = { s.wafer w with place := .pos src } ∧ others t
    let lost (r : FailReason) (code : Byte) (t : State) : Prop :=
      t.slot k = { s.slot k with st := .failed, acked := false, reason := r, robotCode := code } ∧
      t.posn src = { s.posn src with occupant := none, claim := none, uncertain := true } ∧
      t.posn d = { s.posn d with occupant := none, claim := none, uncertain := true } ∧
      t.wafer w = { s.wafer w with suspect := true, place := .unknown } ∧ t.hand.held = true ∧
      FaultMade s t 3 d (BitVec.ofNat 16 (r.num + 256 * code.toNat)) ∧ CountedForWafer s t [13] ∧ others t
    (s.hand.rx = .hunt → (s.slot k).acked = false → ∃ t, exec (.robotAck (s.slot k).tag a b) s = .next t ∧
      t.slot k = { s.slot k with acked := true } ∧ (∀ j, j ≠ k → t.slot j = s.slot j) ∧
      t.hand = { s.hand with slots := t.hand.slots, ackTimer := none, doneTimer := some s.now } ∧
      Publishes s t [slotWord k] ∧ t = { s with hand := t.hand, queue := t.queue }) ∧
    (s.hand.rx = .hunt → (s.slot k).acked = false → ∃ t, exec (.robotNak (s.slot k).tag a b) s = .next t ∧
      restored .robotRefused a t ∧ t.hand.held = s.hand.held ∧ t.report.pendingFaults = s.report.pendingFaults) ∧
    (s.hand.rx = .hunt → ∃ t, exec (.robotFault (s.slot k).tag a b) s = .next t ∧ lost .robotFault a t) ∧
    (∀ p, s.plan = some p → ∀ t0, s.hand.ackTimer = some t0 → (s.slot k).acked = false →
      ∃ t, exec .ackTimeout s = .next t ∧ t.now = max s.now (t0 + 1000 * p.robotAckTimeout) ∧
        restored .ackTimeout 0 t ∧ t.hand.held = true ∧
        FaultMade s t 3 d (BitVec.ofNat 16 FailReason.ackTimeout.num)) ∧
    (∀ p, s.plan = some p → ∀ t0, s.hand.doneTimer = some t0 → (s.slot k).acked = true →
      ∃ t, exec .doneTimeout s = .next t ∧ t.now = max s.now (t0 + 1000 * p.robotDoneTimeout) ∧
        lost .doneTimeout 0 t)

/-- R73: a DONE matched in either phase puts the wafer at its destination and frees both positions; where neither is ST,
nothing beyond the handling unit and its staged report changes (a load and a departure have statements of their own). -/
def Obligations.DoneCompletesTheTransfer : Prop :=
  ∀ (s : State) (a b : Byte), Quiet s → Room s 8 → s.hand.rx = .hunt → ∀ k, s.sentSlot = some k →
    ∀ src, (s.slot k).source = .pos src → src ≠ (s.slot k).dest → (s.slot k).dest ≠ 52 →
    (src ≠ 52 ∨ s.hand.stage ≠ some (s.slot k).wafer) →
    ∃ t, exec (.robotDone (s.slot k).tag a b) s = .next t ∧
      t.slot k = { s.slot k with st := .done, acked := false } ∧ (∀ j, j ≠ k → t.slot j = s.slot j) ∧
      t.posn (s.slot k).dest = { s.posn (s.slot k).dest with occupant := some (s.slot k).wafer, claim := none } ∧
      t.posn src = { s.posn src with claim := none } ∧
      (∀ p, p ≠ src → p ≠ (s.slot k).dest → t.posn p = s.posn p) ∧
      (∀ w, t.wafer w = if w = (s.slot k).wafer then { s.wafer w with place := .pos (s.slot k).dest } else s.wafer w) ∧
      t.hand.ackTimer = none ∧ t.hand.doneTimer = none ∧ (t.report.handSlot.map (·.kind)) = some 3 ∧
      Publishes s t [positionWord (s.slot k).dest, positionWord src, waferStateWord (s.slot k).wafer, slotWord k] ∧
      t = { s with hand := t.hand, queue := t.queue, report := { s.report with handSlot := t.report.handSlot } }

/-- R69: the robot receiver. In HUNT a start byte begins a frame and any other byte is discarded with LINK_ERROR; in
FRAME up to four bytes are collected; a stop-bit error, and 5 ms after the last byte, abandon the frame with LINK_ERROR
(where the gap's expiry leaves the clock is the model's choice, log 16). R70: a reply that meets no SENT slot, or another
tag, or a second ACK or NAK, is stray: LINK_STRAY is reported and nothing else happens. -/
def Obligations.ReceiverFramesAndDiscards : Prop :=
  (∀ (s : State), Quiet s →
    let linkError : Report := { s.report with events := s.report.events ||| 32 }
    (s.hand.rx = .hunt → exec (.robotByteReceived 0xA5) s = .next
      { s with hand := { s.hand with rx := .frame [] s.now } }) ∧
    (∀ b : Byte, s.hand.rx = .hunt → b ≠ 0xA5 → exec (.robotByteReceived b) s = .next { s with report := linkError } ∧
      exec (.robotBadFrame (.byte b)) s = .next { s with report := linkError }) ∧
    (∀ (b : Byte) (bs : List Byte) (l : Nat), s.hand.rx = .frame bs l → bs.length < 4 →
      exec (.robotByteReceived b) s = .next { s with hand := { s.hand with rx := .frame (bs ++ [b]) s.now } }) ∧
    exec (.robotBadFrame .stopBitError) s = .next { s with hand := { s.hand with rx := .hunt }, report := linkError } ∧
    (∀ (t g x y c : Byte), s.hand.rx = .hunt → (c ≠ t + g + x + y ∨ t.toNat < 2 ∨ 5 < t.toNat) →
      exec (.robotBadFrame (.frame t g x y c)) s = .next { s with report := linkError }) ∧
    (∀ (bs : List Byte) (l : Nat), s.hand.rx = .frame bs l → exec .robotFrameTimeout s = .next
      { s with now := max s.now (l + 5000), hand := { s.hand with rx := .hunt }, report := linkError })) ∧
  (∀ (s : State) (tag a b : Byte), Quiet s → s.hand.rx = .hunt →
    ((∀ k, s.sentSlot = some k → (s.slot k).tag ≠ tag) →
      ∀ c ∈ [Instr.robotAck tag a b, .robotNak tag a b, .robotDone tag a b, .robotFault tag a b],
        exec c s = .next { s with report := { s.report with events := s.report.events ||| 64 } }) ∧
    (∀ k, s.sentSlot = some k → (s.slot k).acked = true → ∀ c ∈ [Instr.robotAck tag a b, .robotNak tag a b],
        exec c s = .next { s with report := { s.report with events := s.report.events ||| 64 } }))

/-! ### Chapter 5: stage motion -/

/-- R82, R83, R91, R93, R178: a transition one step along the up order adds 1 to the axis's count and one against it
subtracts 1; with a move in progress arrival is judged, and the sequencer's phase follows the move. One of both channels
leaves the count, adds 1 to the fault count up to 65,535, makes the axis's ENCODER fault pending and is counted among
ENCODER_FAULTS; it ends a move in progress FAULTED with a STOP frame, and a revisit in MOVE, SETTLE, FOCUS or EXPOSE (with a
pause pending) is a failed attempt POSITION_SUSPECT, a probe ends with it. Each transition makes the new phase the one last
seen. R18: with the queue full and no entry for the stage status the move record keeps its state and the timers theirs while
the step of the change waits. What last Z becomes at the abort of an attempt for which no Z was set is the model's choice
(log 32). -/
def Obligations.EncoderTransitionsAreJudged : Prop :=
  ∀ (s : State) (axis : Axis) (ph : BitVec 2), Quiet s →
    let e := s.motion.encoder axis
    let up : BitVec 2 → BitVec 2 := fun p => match p.toNat with | 0 => 2 | 2 => 3 | 3 => 1 | _ => 0
    let kind := match axis with | .x => 0 | .y => 1
    let c := Instr.encoderTransition axis ph
    let engaged := s.seq.st = .running ∨ s.seq.st = .probing
    let follows := engaged ∧ (s.seq.phase = .move ∨ s.seq.phase = .settle)
    let counted (e1 : Encoder) : Prop :=
      let m := s.motion.setEncoder axis e1
      let arrived := ∃ g, m.active = some g ∧ ∃ p, s.plan = some p ∧ (m.x.count.toInt - g.1).natAbs ≤ p.arrivalWindow ∧
        (m.y.count.toInt - g.2).natAbs ≤ p.arrivalWindow
      let moved (m2 : Motion) (ph2 : Phase) : Prop := ∃ t, exec c s = .next t ∧
        t = { s with motion := m2, seq := if follows then { s.seq with phase := ph2 } else s.seq, queue := t.queue } ∧
        Publishes s t (stageStatus ++ if t.seq = s.seq then [] else dispatchWords)
      ((moving s.motion = false ∨ (s.motion.move = .moving ∧ ¬arrived) ∨ (s.motion.move = .settling ∧ arrived)) →
        exec c s = .next { s with motion := m }) ∧
      (s.queue.length = 16 → s.plan ≠ none →
        hasEntry s.queue ((wordAddr s.planBase s.plan ⟨.stage, 0x01C⟩).getD 0) = false →
        (s.motion.move = .moving → arrived → exec c s = .next { s with motion := m, waiting := [[.move .arrive]] }) ∧
        (s.motion.move = .settling → ¬arrived → exec c s = .next { s with motion := m, waiting := [[.move .leave]] })) ∧
      (Room s 4 → s.motion.move = .settling → ¬arrived → moved { m with move := .moving, settleTimer := none } .move) ∧
      (∀ p, s.plan = some p → s.motion.move = .moving → arrived → Room s 5 →
        (p.settleTime ≠ 0 → moved { m with move := .settling, settleTimer := some s.now } .settle) ∧
        (p.settleTime = 0 → engaged → s.seq.phase = .move → s.motion.active = s.seq.target → Permitted s →
          ∃ t, exec c s = .next t ∧
          t.motion = { m with move := .settled, moveTimer := none, settleTimer := none } ∧
          (s.seq.st = .running → FocusBegun s t .revisit s.seq.cx s.seq.cy) ∧
          (s.seq.st = .probing → FocusBegun s t .probe s.seq.px s.seq.py)))
    (ph = up e.phase → counted { e with count := e.count + 1, phase := ph }) ∧
    (e.phase = up ph → counted { e with count := e.count - 1, phase := ph }) ∧
    (ph = e.phase → exec c s = .next s) ∧
    (ph = up (up e.phase) → s.lot.st ≠ .opened →
      let m := s.motion.setEncoder axis { e with faults := min 65535 (e.faults + 1), phase := ph }
      let faulted (t : State) : Prop :=
        FaultMade s t kind kind (BitVec.ofNat 16 (e.phase.toNat + 4 * ph.toNat)) ∧
        t.motion = { m with
          move := if moving s.motion then .faulted else m.move
          stopCause := if moving s.motion then .noCause else m.stopCause
          moveTimer := if moving s.motion then none else m.moveTimer
          settleTimer := if moving s.motion then none else m.settleTimer
          frame := t.motion.frame, frameSeq := t.motion.frameSeq, heldMove := t.motion.heldMove } ∧
        (if moving s.motion = true then StopRequested s.now s.motion t.motion
          else t.motion.frame = m.frame ∧ t.motion.frameSeq = m.frameSeq ∧ t.motion.heldMove = m.heldMove) ∧
        t.hand = { s.hand with wafers := t.hand.wafers } ∧ t.mem = s.mem ∧ t.xform = s.xform
      (¬(engaged ∧ activePhase s.seq = true) → moving s.motion = false → Room s 2 → ∃ t, exec c s = .next t ∧ faulted t ∧
        CountedForWafer s t [11] ∧
        t = { s with
          motion := t.motion, lot := { s.lot with attrs := t.lot.attrs }, queue := t.queue
          report := { s.report with faultSlot := t.report.faultSlot, pendingFaults := t.report.pendingFaults } }) ∧
      (∀ p, s.plan = some p → ∀ d, Revisiting s d → activePhase s.seq = true → AttemptByPhase s → PauseAlone s.seq →
        s.report.seqSlot = none → s.queue = [] → ∃ t, exec c s = .next t ∧ faulted t ∧
        AttemptCharged s t p d .positionSuspect [11] ∧ HostPaused t.seq ∧ AttemptAborted s t) ∧
      (s.seq.st = .probing → activePhase s.seq = true → AttemptByPhase s → s.queue = [] → ∃ t, exec c s = .next t ∧
        faulted t ∧ ProbeEnded s t .positionSuspect ∧ AttemptAborted s t ∧ CountedForWafer s t [11] ∧
        t.defects = s.defects ∧
        (∀ b pr, s.focus.attempt = some b → b.pred = some pr → t.seq.probeResult =
          { z0 := pr.z0, source := pr.source, clamped := pr.clamped, cell := some pr.cell, samples := b.sample })))

/-- R85, R86, R99, R100: PRESET, MOTION_ENABLE and MOTION_DISABLE, each one step on the stage status words. MOTION_DISABLE
is stated here with motion disabled or no revisit, probe or move in progress; what it aborts has a statement of its own. That
it discards a MOVE frame held behind a STOP frame, with no move in progress, is the model's choice (log 41). -/
def Obligations.StageControlsAreTaken : Prop :=
  ∀ (s : State) (more : Bool), ∀ a, Takes s stageControl a →
    let done (c : Instr) (d : Word) (m : Motion) : Prop := ∃ t, exec c s = .next t ∧
      t = { s.hostDone a 15 d more with motion := m, queue := t.queue } ∧ Publishes s t stageStatus ∧ StoresOnly s t a
    ((s.seq.st = .running ∨ s.seq.st = .probing) → done (.preset more) 1 { s.motion with result := .state }) ∧
    (s.seq.st ≠ .running → s.seq.st ≠ .probing → done (.preset more) 1 { s.motion with
        x := { s.motion.x with count := s.motion.presetX }, y := { s.motion.y with count := s.motion.presetY }
        active := none, shadow := none, move := .idle, stopCause := .noCause, moveTimer := none, settleTimer := none
        result := .ok }) ∧
    (s.motion.interlock = true → done (.motionEnable more) 2 { s.motion with result := .interlock }) ∧
    (s.motion.interlock = false →
      done (.motionEnable more) 2 { s.motion with enable := true, awaiting := false, result := .ok }) ∧
    (moving s.motion = false → (s.motion.enable = false ∨ (¬SeqEngaged s ∧ s.focus.attempt = none)) →
      done (.motionDisable more) 3 { s.motion with enable := false, heldMove := none, result := .ok })

/-- R91, R92: the settle timer's expiry in SETTLING makes the move SETTLED and begins FOCUS of the revisit (R172, with the
prefetch of the defect at the head of the queue) or of the probe (R181); the move timer's expiry ends a probe's move
TIMED_OUT with a STOP frame, and the probe with MOVE_TIMEOUT (a revisit's is in the statement of the failed attempts). The
clock is at the expiry (log 16). -/
def Obligations.MoveTimersEndTheMove : Prop :=
  ∀ (s : State), Quiet s → Room s 7 → ∀ p, s.plan = some p →
    (s.seq.phase = .move ∨ s.seq.phase = .settle) → s.motion.active = s.seq.target →
    (∀ t0, s.motion.settleTimer = some t0 → s.motion.move = .settling → Permitted s →
      let begun (kind : AttemptKind) (x y : Int) (t : State) : Prop := FocusBegun s t kind x y ∧
        t.now = max s.now (t0 + p.settleTime) ∧
        t.motion = { s.motion with move := .settled, moveTimer := none, settleTimer := none } ∧
        t = { s with now := t.now, motion := t.motion, focus := t.focus, queue := t.queue, xform := t.xform
                     seq := { s.seq with phase := .focus, outstanding := t.seq.outstanding } } ∧
        Publishes s t (stageStatus ++ dispatchWords ++ [loopStatusWord])
      (s.seq.st = .running → s.seq.outstanding = none → ∃ t, exec .settleExpiry s = .next t ∧
        begun .revisit s.seq.cx s.seq.cy t ∧
        (s.defects.queue = [] → t.xform = s.xform ∧ t.seq.outstanding = none) ∧
        (∀ h, s.defects.queue.head? = some h → t.seq.outstanding = some (.prefetch h) ∧
          t.xform = arbitrated (forwardAnswer s)
            { s.xform with seqPlace := some ((s.defect h).x.toInt, (s.defect h).y.toInt) })) ∧
      (s.seq.st = .probing → ∃ t, exec .settleExpiry s = .next t ∧ begun .probe s.seq.px s.seq.py t ∧
        t.xform = s.xform ∧ t.seq.outstanding = s.seq.outstanding)) ∧
    (∀ t0, s.motion.moveTimer = some t0 → moving s.motion = true → s.seq.st = .probing → s.focus.attempt = none →
      ∃ t, exec .moveTimeout s = .next t ∧ StopRequested t.now s.motion t.motion ∧ ProbeEnded s t .moveTimeout ∧
        t.now = max s.now (t0 + 1000 * p.moveTimeout) ∧
        t.motion = { s.motion with
          move := .timedOut, stopCause := .noCause, moveTimer := none, settleTimer := none
          frame := t.motion.frame, frameSeq := t.motion.frameSeq, heldMove := none } ∧
        t = { s with now := t.now, motion := t.motion, seq := t.seq, queue := t.queue, openCount := t.openCount })

/-- R88, R101, R130, R133: the end of a stage link frame lets a held MOVE frame begin; the end of an actuator frame lets a
waiting frame begin, or starts the settle timer of the attempt that waits for it; the image trigger pulse and the HSAMPLE
pulse end. The clock is at the end (log 16); FSETTLED is then low (log 26), and no trigger request waits (log 10). -/
def Obligations.FramesAndPulsesEnd : Prop :=
  ∀ (s : State), Quiet s → Room s 2 →
    (∀ f, s.motion.frame = some f → s.motion.heldMove = none → exec .stageFrameEnd s = .next
      { s with now := max s.now (f.began + 22), motion := { s.motion with frame := none } }) ∧
    (∀ f, s.motion.frame = some f → ∀ g, s.motion.heldMove = some g → ∃ t, exec .stageFrameEnd s = .next t ∧
      (let bytes : List Byte := [0x10, s.motion.frameSeq] ++ bigEndian (ofSigned g.1) ++ bigEndian (ofSigned g.2)
       t = { s with
        now := max s.now (f.began + 22), queue := t.queue
        motion := { s.motion with
          frame := some { move := true, bytes := bytes ++ [byteSum bytes], began := t.now }
          frameSeq := s.motion.frameSeq + 1, heldMove := none } }) ∧
      Publishes s t stageStatus) ∧
    (∀ t0, s.motion.trigPulse = some t0 → s.motion.trigWait = false → exec .imgTrigPulseEnd s = .next
      { s with now := max s.now (t0 + 10), motion := { s.motion with trigPulse := none } }) ∧
    (∀ t0, s.focus.hsample = some t0 → exec .hsamplePulseEnd s = .next
      { s with now := max s.now (t0 + 2), focus := { s.focus with hsample := none } }) ∧
    (∀ f, s.focus.frame = some f → s.focus.waitingFrame = none → s.focus.attempt = none →
      exec .actuatorFrameEnd s = .next
        { s with now := max s.now (f.began + 12), focus := { s.focus with frame := none, fsettled := false } }) ∧
    (∀ f, s.focus.frame = some f → ∀ b, s.focus.attempt = some b → s.focus.waitingFrame = none → b.loop = .awaitSettle →
      b.ending = false → s.focus.settleTimer = none → exec .actuatorFrameEnd s = .next
        { s with
          now := max s.now (f.began + 12)
          focus := { s.focus with
            frame := none, fsettled := false, settleTimer := some (max s.now (f.began + 12)) } }) ∧
    (∀ f, s.focus.frame = some f → ∀ z, s.focus.waitingFrame = some z → ∃ t, exec .actuatorFrameEnd s = .next t ∧
      (let bytes : List Byte := 0x20 :: bigEndian (ofSigned z)
       t = { s with
        now := max s.now (f.began + 12), queue := t.queue
        focus := { s.focus with
          fsettled := false, setpoint := some (ofSigned z), waitingFrame := none
          frame := some { bytes := bytes ++ [byteSum bytes], began := t.now } } }) ∧
      Publishes s t [setpointWord, loopStatusWord])

/-- R97, R98: an assertion of INTERLOCK disables motion, sends a STOP frame and makes an INTERLOCK fault pending with detail
ASSERT; a release sets awaiting enable and makes the fault pending with detail RELEASE, and motion stays disabled. Stated for
no move, revisit or probe in progress; what an assertion aborts has a statement of its own. -/
def Obligations.InterlockWithdrawsPermission : Prop :=
  ∀ (s : State), Quiet s → Room s 2 →
    let faulted (code : BitVec 16) (t : State) : Prop :=
      FaultMade s t 4 0 code ∧ Publishes s t stageStatus
    let report (t : State) : Report :=
      { s.report with faultSlot := t.report.faultSlot, pendingFaults := t.report.pendingFaults }
    (s.motion.interlock = true → exec .interlockAssert s = .next s) ∧
    (s.motion.interlock = false → moving s.motion = false → ¬SeqEngaged s → s.focus.attempt = none →
      ∃ t, exec .interlockAssert s = .next t ∧ faulted 0 t ∧ StopRequested s.now s.motion t.motion ∧
      t.motion = { s.motion with
        enable := false, interlock := true, awaiting := false
        frame := t.motion.frame, frameSeq := t.motion.frameSeq, heldMove := none } ∧
      t = { s with motion := t.motion, queue := t.queue, report := report t }) ∧
    (s.motion.interlock = true → ∃ t, exec .interlockRelease s = .next t ∧ faulted 1 t ∧
      t.motion = { s.motion with interlock := false, awaiting := true } ∧ t.motion.enable = false ∧
      t = { s with motion := t.motion, queue := t.queue, hand := { s.hand with headWaits := false }
                   report := report t }) ∧
    (s.motion.interlock = false → exec .interlockRelease s = .next s)

/-- R93, R100, R138, R154, R177, R179, R181: an assertion of INTERLOCK, a MOTION_DISABLE, and a presence fault at ST that
persists, in a revisit (MOVE, SETTLE, FOCUS or EXPOSE) and in a probe. A move in progress ends STOPPED with a STOP frame; a
focus attempt in progress is aborted; a revisit's defect returns to the head of the queue with its attempts kept and no
report, and the sequencer is HALTED, or after the presence fault PAUSED(FAULT); a probe ends INTERLOCK or PRESENCE. What
last Z becomes at the abort of an attempt for which no Z was set is the model's choice (log 32). -/
def Obligations.AbortsEndTheRevisit : Prop :=
  ∀ (s : State), Quiet s → s.queue = [] → s.lot.st ≠ .opened → AttemptByPhase s →
    let stopped (cause : StopCause) (t : State) : Prop :=
      (moving s.motion = true → t.motion.move = .stopped ∧ t.motion.stopCause = cause ∧ t.motion.moveTimer = none ∧
        t.motion.settleTimer = none ∧ StopRequested t.now s.motion t.motion) ∧
      (moving s.motion = false → t.motion.move = s.motion.move) ∧ t.motion.active = s.motion.active
    let aborted (cause : StopCause) (t : State) : Prop := AttemptAborted s t ∧ stopped cause t ∧
      t.seq.phase = .noPhase ∧ t.seq.current = none ∧ t.seq.verdictTimer = none ∧
      t.report.seqSlot = s.report.seqSlot ∧ t.xform = s.xform
    let halted (d : Nat) (cause : StopCause) (t : State) : Prop := aborted cause t ∧ Returned s t d ∧ t.seq.st = .halted ∧
      CountedForWafer s t [15] ∧ t.hand = s.hand
    let probed (o : ProbeOutcome) (cause : StopCause) (t : State) : Prop := aborted cause t ∧ ProbeEnded s t o ∧
      t.defects = s.defects ∧ ∀ b pr, s.focus.attempt = some b → b.pred = some pr → t.seq.probeResult =
        { z0 := pr.z0, source := pr.source, clamped := pr.clamped, cell := some pr.cell, samples := b.sample }
    let doubted (t : State) : Prop := t.hand.held = true ∧
      t.posn 52 = { s.posn 52 with occupant := none, uncertain := true } ∧
      (∀ w, t.wafer w = if (s.posn 52).occupant = some w then { s.wafer w with suspect := true, place := .unknown }
        else s.wafer w) ∧ CountedForWafer s t [12] ∧
      FaultMade s t 2 52 (if (s.posn 52).occupant.isSome then 0 else 1)
    (∀ d, Revisiting s d → activePhase s.seq = true →
      (s.motion.interlock = false → ∃ t, exec .interlockAssert s = .next t ∧ halted d .interlock t ∧
        t.motion.enable = false ∧ t.motion.interlock = true ∧ t.mem = s.mem) ∧
      (s.motion.enable = true → ∀ more, ∀ a, Takes s stageControl a → ∃ t, exec (.motionDisable more) s = .next t ∧
        halted d .disable t ∧ t.motion.enable = false ∧ t.motion.result = .ok ∧ t.hReady = true ∧ StoresOnly s t a) ∧
      (∀ t0, s.debounceTimer 2 = some t0 → s.compared 52 = true → ∃ t, exec (.debounceExpiry 2) s = .next t ∧
        aborted .request t ∧ Returned s t d ∧ doubted t ∧ t.seq.st = .paused ∧ t.seq.reason = .fault ∧
        t.mem = s.mem)) ∧
    (s.seq.st = .probing → s.seq.current = none → s.seq.verdictTimer = none →
      (s.motion.interlock = false → ∃ t, exec .interlockAssert s = .next t ∧ probed .interlock .interlock t ∧
        t.motion.enable = false ∧ t.motion.interlock = true ∧ t.hand = s.hand ∧ t.mem = s.mem) ∧
      (s.motion.enable = true → ∀ more, ∀ a, Takes s stageControl a → ∃ t, exec (.motionDisable more) s = .next t ∧
        probed .interlock .disable t ∧ t.motion.enable = false ∧ t.motion.result = .ok ∧ t.hReady = true ∧
        StoresOnly s t a) ∧
      (∀ t0, s.debounceTimer 2 = some t0 → s.compared 52 = true → ∃ t, exec (.debounceExpiry 2) s = .next t ∧
        probed .presence .request t ∧ doubted t ∧ t.mem = s.mem))

/-! ### Chapter 6: alignment -/

/-- R107, R108: a write of a coefficient word updates its copy whatever the judgement, and its step puts the load-cycle
position as the table of R107 gives it. R109, R110: an alignment commit is refused with BUSY, INCOMPLETE or STATE, checked in
this order, changing the commit result alone, or becomes the pending commit with the copies as they stand and an identity
check for the engine. -/
def Obligations.CoefficientsAreLoaded : Prop :=
  (∀ (s : State) (k : Fin 10) (be : BitVec 4) (d : Word) (more : Bool), ∀ a, Takes s (coefficientWord k.val) a → be ≠ 0 →
    ∃ t, exec (.coefficientWrite k be d more) s = .next t ∧
      t.xform.loadPos = (if be ≠ 15 then .broken else if k.val = 0 then .at 1
        else if s.xform.loadPos = .at k.val then .at (k.val + 1) else .broken) ∧
      (∀ j, t.xform.copies.get 0 j
        = if j = k.val then mergeLanes be (s.xform.copies.get 0 j) d else s.xform.copies.get 0 j) ∧
      t = { s.hostDone a be d more with
        xform := { s.xform with copies := t.xform.copies, loadPos := t.xform.loadPos }, queue := t.queue } ∧
      Publishes s t transformStatus ∧ StoresOnly s t a) ∧
  (∀ (s : State) (more : Bool), ∀ a, Takes s alignmentCommitWord a →
    let refused (c : Code) : Prop := ∃ t, exec (.alignmentCommit more) s = .next t ∧
      t = { s.hostDone a 15 1 more with xform := { s.xform with commitResult := c }, queue := t.queue } ∧
      Publishes s t transformStatus ∧ StoresOnly s t a
    (s.xform.pendingCommit ≠ none → refused .busy) ∧
    (s.xform.pendingCommit = none → s.xform.loadPos ≠ .at 10 → refused .incomplete) ∧
    (s.xform.pendingCommit = none → s.xform.loadPos = .at 10 → (∀ w, s.hand.stage = some w → ¬AlignReady s w) →
      refused .state) ∧
    (∀ w, s.hand.stage = some w → s.xform.pendingCommit = none → s.xform.loadPos = .at 10 → AlignReady s w →
      ∃ t, exec (.alignmentCommit more) s = .next t ∧
        (∀ c, t.xform.pendingCommit = some c → c.wafer = w ∧
          [c.candidate.a11, c.candidate.a12, c.candidate.a21, c.candidate.a22, c.candidate.bx, c.candidate.bY,
           c.candidate.c11, c.candidate.c12, c.candidate.c21, c.candidate.c22]
            = (List.range 10).map fun k => (s.xform.copies.get 0 k).toInt) ∧
        t.xform.pendingCommit ≠ none ∧
        t = { s.hostDone a 15 1 more with
          queue := t.queue
          xform := arbitrated (forwardAnswer s) { s.xform with
            pendingCommit := t.xform.pendingCommit, commitResult := .noResult, commitPlace := true } } ∧
        Publishes s t transformStatus ∧ StoresOnly s t a))

/-- R110, R111, R112: the identity check records the worst deviation of A·C from the identity, the first of those that
share it. A worst deviation above 2^38 rejects the commit; otherwise it succeeds if the conditions of R109 still hold for
the wafer recorded, and ends with STATE if not. R119: the free engine then serves the sequencer's request before a view's,
with the coefficients that the commit has left in force. -/
def Obligations.IdentityCheckSettlesTheCommit : Prop :=
  ∀ (s : State), Quiet s → Room s 7 → s.xform.service = some (.check false) →
    ∀ pc, s.xform.pendingCommit = some pc →
    let c := pc.candidate
    let dev : List (Nat × Nat) :=
      [(11, (c.a11 * c.c11 + c.a12 * c.c21 - 2 ^ 54).natAbs), (12, (c.a11 * c.c12 + c.a12 * c.c22).natAbs),
       (21, (c.a21 * c.c11 + c.a22 * c.c21).natAbs), (22, (c.a21 * c.c12 + c.a22 * c.c22 - 2 ^ 54).natAbs)]
    ∃ t, exec .identityCheckEnd s = .next t ∧
      (∀ e ∈ dev, e.2 ≤ t.xform.devMagnitude) ∧
      dev.find? (fun e => e.2 == t.xform.devMagnitude) = some (t.xform.devElement, t.xform.devMagnitude) ∧
      (let x : Transform := { s.xform with
         service := none, pendingCommit := none, devElement := t.xform.devElement, devMagnitude := t.xform.devMagnitude }
       (2 ^ 38 < t.xform.devMagnitude →
         t = { s with xform := arbitrated (forwardAnswer s) { x with commitResult := .rejected }, queue := t.queue } ∧
         Publishes s t transformStatus) ∧
       (t.xform.devMagnitude ≤ 2 ^ 38 → ¬AlignReady s pc.wafer →
         t = { s with xform := arbitrated (forwardAnswer s) { x with commitResult := .state }, queue := t.queue } ∧
         Publishes s t transformStatus) ∧
       (t.xform.devMagnitude ≤ 2 ^ 38 → AlignReady s pc.wafer →
         (∀ w, t.wafer w = if w = pc.wafer ∧ (s.wafer w).progress = .loaded
           then { s.wafer w with progress := .aligned } else s.wafer w) ∧
         t = { s with
           xform := arbitrated (forwardAnswer t)
             { x with commitResult := .ok, inForce := some c, seqNo := s.xform.seqNo + 1 }
           motion := { s.motion with shadow := none }, hand := { s.hand with wafers := t.hand.wafers }
           queue := t.queue }))

/-- R116, R117, R118: a view request latches the counts, the coefficients in force and the transform sequence number, or is
refused with BUSY or STATE; the end of its conversion posts the inverse of the latched position, rounded half up and
saturated at ±2,147,483,647. R119: whenever the engine is free, it serves the sequencer's request before a commit's before a
view's. -/
def Obligations.ViewsAreConverted : Prop :=
  (∀ (s : State) (more : Bool), ∀ a, Takes s viewRequestWord a →
    let answered (x : Transform) : Prop := ∃ t, exec (.viewRequest more) s = .next t ∧
      t = { s.hostDone a 15 1 more with xform := x, queue := t.queue } ∧ Publishes s t transformStatus ∧
      StoresOnly s t a
    (s.xform.view ≠ none → answered { s.xform with viewResult := .busy }) ∧
    (s.xform.view = none → s.xform.inForce = none → answered { s.xform with viewResult := .state }) ∧
    (∀ c, s.xform.inForce = some c → s.xform.view = none → answered (arbitrated (forwardAnswer s) { s.xform with
        view := some { xCount := s.motion.x.count, yCount := s.motion.y.count, coeffs := c, seqNo := s.xform.seqNo }
        viewResult := .ok, viewPlace := true }))) ∧
  (∀ (s : State), Quiet s → Room s 5 → s.xform.service = some .inverse → ∀ v, s.xform.view = some v →
    let ux := v.xCount.toInt - v.coeffs.bx
    let uy := v.yCount.toInt - v.coeffs.bY
    let x := (v.coeffs.c11 * ux + v.coeffs.c12 * uy + 2 ^ 23).fdiv (2 ^ 24)
    let y := (v.coeffs.c21 * ux + v.coeffs.c22 * uy + 2 ^ 23).fdiv (2 ^ 24)
    let sat : Int → Int := fun r => max (-2147483647) (min 2147483647 r)
    ∃ t, exec .inverseDone s = .next t ∧
      t = { s with
        queue := t.queue
        xform := arbitrated (forwardAnswer s) { s.xform with
          service := none, view := none
          results := { waferX := ofSigned (sat x), waferY := ofSigned (sat y), xCount := v.xCount, yCount := v.yCount
                       number := s.xform.results.number + 1, seqNo := v.seqNo, satX := decide (sat x ≠ x)
                       satY := decide (sat y ≠ y) } } } ∧
      Publishes s t viewResults)

/-- R114, R115: the answer to a forward request: the range test on the coordinates comes first, then the coefficients, then
the travel limits, every limit inclusive. R121: a discarded answer reaches nobody. R172, R95: the answer to a prefetch fills
the shadow target, NO_TRANSFORM nothing. R170, R181: an answer that TARGET has waited for is discarded, and TARGET then asks
for its own. R165, R170, R171: a target that is answered for the selected defect activates it and starts its move (R90; that
a MOVE frame of an older move still held behind a STOP frame is replaced is the model's choice, log 31), which is SETTLING at
once where the stage stands there already (R91), and with a settle time of 0 SETTLED with FOCUS begun (R172); a defect that
the list unit answers STALE for is given up for the head of the queue, and one whose quota is reached is retired without a
report, here the last one queued (R182); with a pause pending the target is not moved to; NO_TRANSFORM leaves the defect
PENDING and enters PAUSED(FAULT); UNREACHABLE retires the defect with its cause and a REVISIT report, and the sequencer comes
to the pause that is pending (R153, R166). R181: the answer to a probe starts its move, or ends the probe with COORDINATE,
TRAVEL or NO_TRANSFORM. R119: the free engine then serves the sequencer's next request before a waiting commit before a
waiting view. -/
def Obligations.ForwardAnswersAreTaken : Prop :=
  (∀ (s : State) (x y : Int), ∀ p, s.plan = some p →
    let accepted := -200000000 ≤ x ∧ x ≤ 200000000 ∧ -200000000 ≤ y ∧ y ≤ 200000000
    (¬accepted → forwardAnswer s x y = .unreachable s.xform.seqNo) ∧
    (accepted → s.xform.inForce = none → forwardAnswer s x y = .noTransform) ∧
    (∀ c, s.xform.inForce = some c → accepted →
      let tx := (c.a11 * x + c.a12 * y + 2 ^ 29).fdiv (2 ^ 30) + c.bx
      let ty := (c.a21 * x + c.a22 * y + 2 ^ 29).fdiv (2 ^ 30) + c.bY
      let travel := p.travelXMin ≤ tx ∧ tx ≤ p.travelXMax ∧ p.travelYMin ≤ ty ∧ ty ≤ p.travelYMax
      (travel → forwardAnswer s x y = .reachable tx ty s.xform.seqNo) ∧
      (¬travel → forwardAnswer s x y = .unreachable s.xform.seqNo))) ∧
  (∀ (s : State) (f : FwdAnswer), Quiet s → s.xform.service = some (.forward f true) →
    exec .forwardDone s = .next { s with xform := arbitrated (forwardAnswer s) { s.xform with service := none } }) ∧
  (∀ (s : State) (f : FwdAnswer), Quiet s → s.xform.service = some (.forward f false) → ∀ p, s.plan = some p →
    let freed := arbitrated (forwardAnswer s) { s.xform with service := none }
    let asks (x y : Int) := arbitrated (forwardAnswer s) { s.xform with service := none, seqPlace := some (x, y) }
    let accepted (x y : Int) := -200000000 ≤ x ∧ x ≤ 200000000 ∧ -200000000 ≤ y ∧ y ≤ 200000000
    let stands (x y : Int) := (s.motion.x.count.toInt - x).natAbs ≤ p.arrivalWindow ∧
      (s.motion.y.count.toInt - y).natAbs ≤ p.arrivalWindow
    let starts (x y : Int) (q : Sequencer) (kind : AttemptKind) (cx cy : Int) (next : Option Nat) (also : State → Prop) : Prop :=
      let m := startedMotion s.now x y s.motion
      (¬stands x y → ∃ t, exec .forwardDone s = .next t ∧ also t ∧
        t = { s with defects := t.defects, seq := q, motion := m, queue := t.queue, xform := freed }) ∧
      (stands x y → p.settleTime ≠ 0 → ∃ t, exec .forwardDone s = .next t ∧ also t ∧
        t = { s with
          defects := t.defects, seq := { q with phase := .settle }, queue := t.queue, xform := freed
          motion := { m with move := .settling, settleTimer := some s.now } }) ∧
      (stands x y → p.settleTime = 0 → ∃ t, exec .forwardDone s = .next t ∧ also t ∧ FocusBegun s t kind cx cy ∧
        t = { s with
          defects := t.defects, queue := t.queue, focus := t.focus
          seq := { q with phase := .focus, outstanding := next.map Purpose.prefetch }
          motion := { m with move := .settled, moveTimer := none }
          xform := match next with
            | none => freed
            | some h => asks (s.defect h).x.toInt (s.defect h).y.toInt })
    (s.seq.targetWait = false → ∀ i, s.seq.outstanding = some (.prefetch i) → Room s 2 → ∃ t, exec .forwardDone s = .next t ∧
      t.motion.shadow = (match f with
        | .reachable x y n => some { index := i, target := some (x, y), seqNo := n }
        | .unreachable n => some { index := i, target := none, seqNo := n }
        | .noTransform => s.motion.shadow) ∧
      t = { s with
        xform := freed, seq := { s.seq with outstanding := none }
        motion := { s.motion with shadow := t.motion.shadow }, queue := t.queue } ∧
      (f ≠ .noTransform → Publishes s t stageStatus)) ∧
    (s.seq.targetWait = true → s.seq.outstanding = some .discarded → s.seq.phase = .target →
      (∀ d, s.seq.st = .running → s.seq.sel = some d → s.seq.target = none → Room s 2 →
        (∀ r, s.motion.shadow = some r → r.index ≠ d ∨ r.seqNo ≠ s.xform.seqNo) →
        ∃ t, exec .forwardDone s = .next t ∧ t = { s with
          seq := { s.seq with targetWait := false, outstanding := some .target }
          motion := { s.motion with shadow := none }, queue := t.queue, xform := asks s.seq.cx s.seq.cy }) ∧
      (s.seq.st = .probing → exec .forwardDone s = .next { s with
        seq := { s.seq with targetWait := false, outstanding := some .probe }, xform := asks s.seq.px s.seq.py })) ∧
    (∀ d, s.seq.targetWait = false → s.seq.sel = some d → s.seq.outstanding = some .target → s.seq.st = .running →
      s.seq.phase = .target →
      let head := (s.defect d).st = .pending ∧ s.defects.queue.head? = some d
      let quota := quotaReached s (s.defect d).priorClass
      (∀ x y n, f = .reachable x y n → NoFlags s.seq →
        (head → quota = false → Permitted s → Room s 8 → withinTravel p x y = true →
          starts x y
            { s.seq with outstanding := none, target := some (x, y), phase := .move, current := some d, sel := none }
            .revisit s.seq.cx s.seq.cy s.defects.queue.tail.head? fun t =>
              t.defect d = { s.defect d with st := .active } ∧ (∀ j, j ≠ d → t.defect j = s.defect j) ∧
              CountsMove s t 1 2 ∧
              t.defects = { s.defects with
                recs := t.defects.recs, counts := t.defects.counts, queue := s.defects.queue.tail }) ∧
        (¬head → quota = false → Room s 4 → ∀ h, s.defects.queue.head? = some h →
          quotaReached s (s.defect h).priorClass = false →
          (∀ r, s.motion.shadow = some r → r.index ≠ h ∨ r.seqNo ≠ s.xform.seqNo) →
          let hx := (s.defect h).x.toInt
          let hy := (s.defect h).y.toInt
          ∃ t, exec .forwardDone s = .next t ∧ t = { s with
            seq := { s.seq with
              reason := .noReason, sel := some h, current := none, target := none, selecting := false, cx := hx, cy := hy
              cPrior := getField (s.defect h).info 0 4, cTag := (s.defect h).tag, outstanding := some .target }
            motion := { s.motion with shadow := none }, queue := t.queue, xform := asks hx hy }) ∧
        (head → quota = true → s.defects.queue = [d] → s.queue = [] → s.report.seqSlot = none → s.lot.st ≠ .opened →
          ∃ t, exec .forwardDone s = .next t ∧
            t.defect d = { s.defect d with st := .quota, outcome := .quota } ∧ (∀ j, j ≠ d → t.defect j = s.defect j) ∧
            t.defects.queue = [] ∧ CountsMove s t 1 6 ∧ CountedForWafer s t [3] ∧
            t.seq.st = .done ∧ t.seq.phase = .noPhase ∧ t.seq.current = none ∧ t.seq.target = none ∧
            t.report = { s.report with seqSlot := some {
              kind := 2, qualifier := 0, wafer := s.hand.stage.getD 63, w1 := halves (t.stateCount 3) (t.stateCount 4)
              w2 := halves (t.stateCount 7) (t.stateCount 5), w3 := halves (t.stateCount 6) (t.stateCount 1) } } ∧
            t = { s with
              defects := t.defects, seq := t.seq, report := t.report, lot := { s.lot with attrs := t.lot.attrs }
              queue := t.queue, xform := freed })) ∧
      (∀ x y n, f = .reachable x y n → PauseAlone s.seq → Room s 2 → ∃ t, exec .forwardDone s = .next t ∧
        HostPaused t.seq ∧ t = { s with seq := t.seq, queue := t.queue, xform := freed }) ∧
      (f = .noTransform → Room s 2 → ∃ t, exec .forwardDone s = .next t ∧ t = { s with
        seq := { s.seq with
          st := .paused, phase := .noPhase, reason := .fault, sel := none, current := none, target := none
          verdictTimer := none, selecting := false, outstanding := none }
        queue := t.queue, xform := freed } ∧ Publishes s t dispatchWords) ∧
      (∀ n, f = .unreachable n → PauseAlone s.seq → s.queue = [] → head → s.report.seqSlot = none → s.lot.st ≠ .opened →
        let cause : DefectOutcome := if accepted s.seq.cx s.seq.cy then .travel else .coordinate
        ∃ t, exec .forwardDone s = .next t ∧ HostPaused t.seq ∧
          t.defect d = { s.defect d with st := .unreachable, outcome := cause } ∧
          (∀ j, j ≠ d → t.defect j = s.defect j) ∧ t.defects.queue = s.defects.queue.tail ∧ CountsMove s t 1 7 ∧
          CountedForWafer s t [4] ∧
          t = { s with
            defects := t.defects, seq := t.seq, report := t.report, lot := { s.lot with attrs := t.lot.attrs }
            queue := t.queue, xform := freed } ∧
          ∃ r, t.report = { s.report with seqSlot := some r } ∧ r.kind = 1 ∧ r.wafer = s.hand.stage.getD 63 ∧
            r.w1 = BitVec.ofNat 32 d ∧ getField r.w2 0 4 = cause.num ∧ r.w3 = (s.defect d).tag)) ∧
    (s.seq.targetWait = false → s.seq.outstanding = some .probe → s.seq.st = .probing → s.seq.phase = .target → Room s 8 →
      let ended (o : ProbeOutcome) : Prop := ∃ t, exec .forwardDone s = .next t ∧ ProbeEnded s t o ∧
        t = { s with seq := t.seq, queue := t.queue, openCount := t.openCount, xform := freed }
      (∀ x y n, f = .reachable x y n → Permitted s → withinTravel p x y = true →
        starts x y { s.seq with outstanding := none, target := some (x, y), phase := .move } .probe s.seq.px s.seq.py none
          fun t => t.defects = s.defects) ∧
      (∀ n, f = .unreachable n → ended (if accepted s.seq.px s.seq.py then .travel else .coordinate)) ∧
      (f = .noTransform → ended .noTransform)))

/-! ### Chapter 7: focus -/

/-- R130, R132, R133: a served prediction starts the first sample with a SETZ frame, or without one where the actuator is
there already; a rising edge of FSETTLED that is waited for pulses HSAMPLE and one of HREADY begins the reading; an edge
that is not waited for has no effect. R129: the free interpolator then serves a waiting request, the sequencer's first, but
while a clearing's steps are untaken. -/
def Obligations.FocusLoopAdvances : Prop :=
  ∀ (s : State), Quiet s → Room s 2 → ∀ b, s.focus.attempt = some b → b.ending = false →
    (∀ v, s.focus.service = some v → v.forQuery = false → v.discard = false →
      let b1 : Attempt := { b with pred := some v.pred, sample := 1, z := some v.pred.z0, loop := .awaitSettle }
      let bytes : List Byte := 0x20 :: bigEndian (ofSigned v.pred.z0)
      (s.focus.setpoint ≠ some (ofSigned v.pred.z0) → s.focus.frame = none →
        ∃ t, exec .predictionDone s = .next t ∧
          t = { s with
            queue := t.queue
            focus := interpolating s { s.focus with
              service := none, attempt := some b1, settleTimer := none, setpoint := some (ofSigned v.pred.z0)
              frame := some { bytes := bytes ++ [byteSum bytes], began := s.now }, waitingFrame := none } } ∧
          Publishes s t [loopStatusWord, setpointWord]) ∧
      (s.focus.setpoint = some (ofSigned v.pred.z0) → s.focus.fsettled = false →
        ∃ t, exec .predictionDone s = .next t ∧
          t = { s with
            queue := t.queue
            focus := interpolating s { s.focus with service := none, attempt := some b1, settleTimer := some s.now } } ∧
          Publishes s t [loopStatusWord]) ∧
      (s.focus.setpoint = some (ofSigned v.pred.z0) → s.focus.fsettled = true →
        ∃ t, exec .predictionDone s = .next t ∧
          t = { s with
            queue := t.queue
            focus := interpolating s { s.focus with
              service := none, attempt := some { b1 with loop := .awaitSample }, settleTimer := none
              hsample := some s.now, sampleTimer := some s.now } } ∧
          Publishes s t [loopStatusWord])) ∧
    (b.loop = .awaitSettle → s.focus.settleTimer ≠ none → ∃ t, exec .fsettledRise s = .next t ∧
      t = { s with
        queue := t.queue
        focus := { s.focus with
          fsettled := true, attempt := some { b with loop := .awaitSample }, settleTimer := none
          hsample := some s.now, sampleTimer := some s.now } } ∧
      Publishes s t [loopStatusWord]) ∧
    (b.loop ≠ .awaitSettle ∨ s.focus.settleTimer = none → exec .fsettledRise s = .next
      { s with focus := { s.focus with fsettled := true } }) ∧
    (b.loop = .awaitSample → s.focus.hsample = none → ∃ t, exec .hreadyRise s = .next t ∧
      t = { s with
        queue := t.queue
        focus := { s.focus with attempt := some { b with loop := .reading }, sampleTimer := none } } ∧
      Publishes s t [loopStatusWord]) ∧
    (b.loop ≠ .awaitSample ∨ s.focus.hsample ≠ none → exec .hreadyRise s = .next s)

/-- R135: the five cases of a height sample, in order; the step is floor((e · gain + 128) / 256). R136: the ending sets last
Z, the last attempt and, for an acceptance alone, the base height. In FOCUS of a revisit an accepted sample fires the image
trigger, counts it, and begins EXPOSE with the verdict timer at zero (R101, R172, R173), and any other ending is a failed
attempt with its outcome (R175; a pause is pending); in FOCUS of a probe the probe ends with the outcome, and an accepted
one asks for a learn (R139, R181). A source other than INTERPOLATED is counted among FOCUS_FALLBACKS (R172). Where no case
ends the attempt, it goes on with the clamped Z. -/
def Obligations.HeightSamplesAreJudged : Prop :=
  ∀ (s : State) (e : BitVec 16), Quiet s → s.queue = [] → s.seq.phase = .focus → s.lot.st ≠ .opened →
    ∀ p, s.plan = some p → ∀ b, s.focus.attempt = some b → b.loop = .reading → b.ending = false →
    ∀ z, b.z = some z → ∀ pr, b.pred = some pr →
    let c := Instr.heightSampleRead e
    let gained := (e.toInt * p.focusGain + 128).fdiv 256
    let near := e.toInt.natAbs ≤ p.focusTolerance
    let limit := (z = p.zMax ∧ 0 < gained) ∨ (z = p.zMin ∧ gained < 0)
    let fallback := if pr.source = .interpolated then [] else [10]
    let figures (accepted : Int) : FocusResult :=
      { acceptedZ := accepted, z0 := pr.z0, source := pr.source, clamped := pr.clamped, cell := some pr.cell
        samples := b.sample }
    let ended (o : FocusOutcome) (t : State) : Prop := t.focus = { s.focus with
        attempt := none, settleTimer := none, sampleTimer := none, lastZ := ofSigned z, nodes := t.focus.nodes
        base := if o = .accepted then ofSigned z else s.focus.base
        last := { outcome := o, source := pr.source, clamped := pr.clamped, samples := b.sample, err := e } } ∧
      t.hReady = s.hReady ∧ t.mem = s.mem ∧ t.xform = s.xform
    let fails (o : FocusOutcome) (o1 : DefectOutcome) (o2 : ProbeOutcome) : Prop :=
      (∀ d, b.kind = .revisit → Revisiting s d → PauseAlone s.seq → s.report.seqSlot = none →
        ∃ t, exec c s = .next t ∧ ended o t ∧ t.focus.nodes = s.focus.nodes ∧ AttemptCharged s t p d o1 fallback ∧
          HostPaused t.seq ∧ t.motion = s.motion) ∧
      (b.kind = .probe → s.seq.st = .probing → ∃ t, exec c s = .next t ∧ ended o t ∧ ProbeEnded s t o2 ∧
        t.focus.nodes = s.focus.nodes ∧ t.seq.probeResult = figures 0 ∧ t.motion = s.motion ∧ t.defects = s.defects)
    (e = 0x8000 → fails .noCapture .noCapture .noCapture) ∧
    (e ≠ 0x8000 → near →
      (b.kind = .revisit → s.seq.st = .running → Permitted s → s.motion.trigPulse = none →
        ∃ t, exec c s = .next t ∧ ended .accepted t ∧ t.focus.nodes = s.focus.nodes ∧
          t.motion = { s.motion with trigCount := s.motion.trigCount + 1, trigPulse := some s.now, trigWait := false } ∧
          t.seq = { s.seq with phase := .expose, verdictTimer := some s.now, focus := figures z } ∧
          CountedForWafer s t fallback ∧ t.defects = s.defects ∧ t.hand = s.hand ∧ t.report = s.report) ∧
      (b.kind = .probe → s.seq.st = .probing → s.focus.clearing = 0 → ∃ t, exec c s = .next t ∧ ended .accepted t ∧
        ProbeEnded s t .accepted ∧ t.seq.probeResult = figures z ∧ t.motion = s.motion ∧ t.defects = s.defects ∧
        (∀ n, t.node n = if n = nearestNode (cellOf p s.seq.px s.seq.py) then learnNode (s.node n) z else s.node n))) ∧
    (e ≠ 0x8000 → ¬near → limit → fails .atLimit .atLimit .atLimit) ∧
    (e ≠ 0x8000 → ¬near → ¬limit → b.sample = p.focusSamples → fails .notConverged .notConverged .notConverged) ∧
    (e ≠ 0x8000 → ¬near → ¬limit → b.sample ≠ p.focusSamples → s.focus.frame = none →
      s.focus.setpoint ≠ some (ofSigned (clampInt p.zMin p.zMax (z + gained))) →
      ∃ t, exec c s = .next t ∧
        t.focus.attempt = some { b with
          err := e, sample := b.sample + 1, z := some (clampInt p.zMin p.zMax (z + gained)), loop := .awaitSettle } ∧
        t.focus.setpoint = some (ofSigned (clampInt p.zMin p.zMax (z + gained))) ∧
        t = { s with
          queue := t.queue
          focus := { s.focus with
            attempt := t.focus.attempt, setpoint := t.focus.setpoint, settleTimer := none, waitingFrame := none
            frame := t.focus.frame } } ∧
        Publishes s t [loopStatusWord, setpointWord])

/-- R140, R141, R142: SEED, CLEAR_NODE, CLEAR_MAP and QUERY. The 37 steps of a CLEAR_MAP are taken as they fit (log 3): at
the end of the event the nodes below a multiple of eight are invalid with their heights kept, and the next step waits, to go
on from there when it is taken, or the result is OK and the word is finished; a learn that has waited for the clearing is
then taken. The end of a query's prediction posts its results. R129: the free interpolator serves a waiting request, the
sequencer's first, but while a clearing's steps are untaken. -/
def Obligations.MapRequestsAreTaken : Prop :=
  (∀ (s : State) (more : Bool), ∀ a, Takes s focusControl a → ∀ p, s.plan = some p →
    let n := s.focus.seedIndex.toNat
    let refused (c : Instr) (d : Word) (r : Code) : Prop := ∃ t, exec c s = .next t ∧
      t = { s.hostDone a 15 d more with focus := { s.focus with ctlResult := r }, queue := t.queue } ∧
      Publishes s t [focusResultWord] ∧ StoresOnly s t a
    let changed (c : Instr) (d : Word) (v : Node) (ws : List WordRef) : Prop := ∃ t, exec c s = .next t ∧
      (∀ j, t.node j = if j = n then v else s.node j) ∧
      t = { s.hostDone a 15 d more with
        focus := { s.focus with nodes := t.focus.nodes, ctlResult := .ok }, queue := t.queue } ∧
      Publishes s t (ws ++ [focusResultWord]) ∧ StoresOnly s t a
    (288 < n → refused (.seed more) 1 .range ∧ refused (.clearNode more) 2 .range) ∧
    (n ≤ 288 → s.hand.stage = none → refused (.seed more) 1 .state ∧ refused (.clearNode more) 2 .state) ∧
    (n ≤ 288 → s.hand.stage ≠ none →
      changed (.seed more) 1
        { height := ofSigned (clampInt p.zMin p.zMax s.focus.seedValue.toInt), valid := true, count := 1 }
        [nodeWord n 0, nodeWord n 1] ∧
      changed (.clearNode more) 2 { s.node n with valid := false, count := 0 } [nodeWord n 1]) ∧
    (s.focus.learns = [] → ∃ t, exec (.clearMap more) s = .next t ∧ ∃ j, j ≤ 37 ∧
      (∀ k, k < 289 → k < 8 * j → t.node k = { s.node k with valid := false, count := 0 }) ∧
      (∀ k, 8 * j ≤ k → t.node k = s.node k) ∧
      (j < 37 → t.waiting = [[.clearNodes j true, .finishHost]] ∧ t.hostBusy = true ∧
        t.focus.clearing = s.focus.clearing + (37 - j)) ∧
      (j = 37 → t.waiting = [] ∧ t.hostBusy = false ∧ t.focus.ctlResult = .ok ∧ t.focus.clearing = s.focus.clearing) ∧
      t.focus.base = s.focus.base ∧ t.focus.lastZ = s.focus.lastZ ∧ t.focus.attempt = s.focus.attempt ∧
      t.motion = s.motion ∧ t.seq = s.seq ∧ t.hand = s.hand ∧ StoresOnly s t a)) ∧
  (∀ (s : State) (more : Bool), ∀ a, Takes s queryTriggerWord a → ∀ p, s.plan = some p →
    (s.focus.query ≠ none → ∃ t, exec (.query more) s = .next t ∧
      t = { s.hostDone a 15 1 more with focus := { s.focus with queryResult := .busy }, queue := t.queue } ∧
      Publishes s t [focusResultWord] ∧ StoresOnly s t a) ∧
    (s.focus.query = none → ∃ t, exec (.query more) s = .next t ∧
      t = { s.hostDone a 15 1 more with
        queue := t.queue
        focus := interpolating s { s.focus with
          queryResult := .ok, query := some (s.focus.queryX.toInt, s.focus.queryY.toInt), queryPlace := true } } ∧
      Publishes s t [focusResultWord] ∧ StoresOnly s t a)) ∧
  (∀ (s : State), Quiet s → Room s 3 → ∀ v, s.focus.service = some v → v.forQuery = true →
    s.focus.query ≠ none → s.focus.queryPlace = false →
    ∃ t, exec .predictionDone s = .next t ∧
      t = { s with
        queue := t.queue
        focus := interpolating s { s.focus with
          service := none, query := none, queryZ := ofSigned v.pred.z0, queryPred := v.pred
          querySeq := s.focus.querySeq + 1, queryNearest := nearestNode v.pred.cell } } ∧
      Publishes s t queryResults) ∧
  (∀ s : State, Inv s = true → s.inReset = false → s.made = [] → s.sequel = [] → s.named = [] → s.hostBusy = true → Room s 8 →
    ∀ k, k < 37 → s.waiting = [[.clearNodes k true, .finishHost]] → 37 - k ≤ s.focus.clearing →
    ∀ p, s.plan = some p →
    let cleared (j n : Nat) : Node :=
      if 8 * k ≤ n ∧ n < 8 * j ∧ n < 289 then { s.node n with valid := false, count := 0 } else s.node n
    (s.focus.learns = [] → ∃ t, exec .waitingStepTaken s = .next t ∧ ∃ j, k < j ∧ j ≤ 37 ∧
      (∀ n, t.node n = cleared j n) ∧
      t.focus = interpolating s { s.focus with
        nodes := t.focus.nodes, clearing := s.focus.clearing - (j - k)
        ctlResult := if j = 37 then .ok else s.focus.ctlResult } ∧
      (j < 37 → t = { s with waiting := [[.clearNodes j true, .finishHost]], focus := t.focus, queue := t.queue }) ∧
      (j = 37 → t = { s with
        waiting := [], focus := t.focus, queue := t.queue, hostBusy := false, hReady := true
        map := if s.hostMore then s.map else s.plan })) ∧
    (∀ x y z, k = 36 → s.focus.learns = [(x, y, z)] → s.focus.clearing = 1 → s.focus.seqPlace = false →
      s.focus.queryPlace = false → ∃ t, exec .waitingStepTaken s = .next t ∧
      let m := nearestNode (cellOf p x y)
      (∀ n, t.node n = if n = m then learnNode (cleared 37 n) z else cleared 37 n) ∧
      t = { s with
        waiting := [], queue := t.queue, hostBusy := false, hReady := true, map := if s.hostMore then s.map else s.plan
        focus := { s.focus with nodes := t.focus.nodes, clearing := 0, learns := [], ctlResult := .ok } }))

/-- R125, R126, R127: the cell and the fractions of a position, its nearest node, and the prediction from the cell's valid
corners: the weighted mean rounded half up, INTERPOLATED with all of the weight valid, PARTIAL with some, the base height
with none, clamped into the Z limits. R139: what a learn leaves in its node. -/
def Obligations.PredictionsAndLearnsFollowTheirFormulas : Prop :=
  (∀ (s : State) (p : Plan) (x y : Int), 0 < p.pitch →
    let index (d : Int) : Nat := if d < 0 then 0 else min 15 (d / p.pitch).toNat
    let fraction (d : Int) : Nat :=
      if d < 0 then 0 else if 16 * (p.pitch : Int) ≤ d then 256
      else (256 * (d - (d / p.pitch) * p.pitch) / p.pitch).toNat
    let i := index (x - p.x0)
    let j := index (y - p.y0)
    let fx := fraction (x - p.x0)
    let fy := fraction (y - p.y0)
    let corner (di dj : Nat) : Node := s.node (17 * (j + dj) + (i + di))
    let weight (di dj : Nat) : Nat := (if di = 0 then 256 - fx else fx) * (if dj = 0 then 256 - fy else fy)
    let valid (di dj : Nat) : Int := if (corner di dj).valid then (weight di dj : Int) else 0
    let sum : Int := valid 0 0 * (corner 0 0).height.toInt + valid 1 0 * (corner 1 0).height.toInt
      + valid 0 1 * (corner 0 1).height.toInt + valid 1 1 * (corner 1 1).height.toInt
    let total : Int := valid 0 0 + valid 1 0 + valid 0 1 + valid 1 1
    let mean : Int := (sum + total.fdiv 2).fdiv total
    let z : Int := if 0 < total then mean else s.focus.base.toInt
    let pr := predict s p x y
    pr.cell = { i := i, j := j, fx := fx, fy := fy } ∧
    nearestNode pr.cell = 17 * (if 128 ≤ fy then j + 1 else j) + (if 128 ≤ fx then i + 1 else i) ∧
    pr.source = (if total = 65536 then .interpolated else if 0 < total then .partly else .fallback) ∧
    pr.z0 = clampInt p.zMin p.zMax z ∧ (pr.clamped = true ↔ clampInt p.zMin p.zMax z ≠ z) ∧
    (p.zMin ≤ p.zMax → p.zMin ≤ pr.z0 ∧ pr.z0 ≤ p.zMax)) ∧
  (∀ (n : Node) (z : Int), -2147483648 ≤ z → z ≤ 2147483647 →
    let m := learnNode n z
    let k : Int := min (n.count + 1) 8
    m.valid = true ∧
    (n.valid = false → m.height.toInt = z ∧ m.count = 1) ∧
    (n.valid = true → m.count = min (n.count + 1) 255 ∧
      m.height.toInt = n.height.toInt + (2 * (z - n.height.toInt) + k).fdiv (2 * k) ∧
      min n.height.toInt z ≤ m.height.toInt ∧ m.height.toInt ≤ max n.height.toInt z))

/-! ### Chapter 8: the defect list -/

/-- R147, R150: a seal is refused with STATE, RANGE or STATE, checked in this order, or begins the order build of N
records; an unseal clears the list in READY and is refused with STATE elsewhere. -/
def Obligations.SealAndUnsealAreTaken : Prop :=
  ∀ (s : State) (n : Word) (more : Bool), ∀ a, Takes s sealWord a → ∀ p, s.plan = some p →
    let refused (c : Instr) (d : Word) (r : Code) : Prop := ∃ t, exec c s = .next t ∧
      t = { s.hostDone a 15 d more with defects := { s.defects with sealResult := r }, queue := t.queue } ∧
      Publishes s t [listStatus] ∧ StoresOnly s t a
    let mounted := ∃ w, s.hand.stage = some w ∧ (s.posn 52).occupant = some w
    (n ≠ 0 → s.seq.st ≠ .idle → refused (.sealList n more) n .state) ∧
    (n ≠ 0 → s.seq.st = .idle → p.capacity < n.toNat → refused (.sealList n more) n .range) ∧
    (n ≠ 0 → s.seq.st = .idle → n.toNat ≤ p.capacity → ¬mounted → refused (.sealList n more) n .state) ∧
    (n ≠ 0 → s.seq.st = .idle → n.toNat ≤ p.capacity → mounted →
      ∃ t, exec (.sealList n more) s = .next t ∧
        t = { s.hostDone a 15 n more with
          defects := { s.defects with
            n := n.toNat, list := .building, sealResult := .ok, formed := false, order := [], queue := [] }
          seq := { s.seq with st := .ordering, phase := .noPhase, reason := .noReason }, queue := t.queue } ∧
        Publishes s t (listStatus :: dispatchWords) ∧ StoresOnly s t a) ∧
    (s.seq.st ≠ .ready → refused (.unsealList more) 0 .state) ∧
    (s.seq.st = .ready → s.queue = [] → ∃ t, exec (.unsealList more) s = .next t ∧
      (∀ d, t.defect d = { s.defect d with
        st := .unlisted, attempts := 0, reviewClass := 0, outcome := .noOutcome, acceptedZ := 0, rank := 0 }) ∧
      t.defects.n = 0 ∧ t.defects.list = .empty ∧ t.defects.queue = [] ∧ t.defects.sealResult = .ok ∧
      (∀ k, t.stateCount k = 0 ∧ t.imagedCount k = 0) ∧ t.defects.quotas = s.defects.quotas ∧
      t.defects.census = s.defects.census ∧
      t = { s.hostDone a 15 0 more with
        defects := t.defects, seq := { s.seq with st := .idle, phase := .noPhase, reason := .noReason }
        queue := t.queue } ∧
      Publishes s t (countWords ++ [listStatus] ++ imagedWords ++ dispatchWords) ∧ StoresOnly s t a)

/-- R148: the order formed holds each index below N once, in the order of the four keys: priority descending, band
ascending, x ascending in an even band and descending in an odd one, index ascending. The records are then stepped in
ascending index, as the queue takes them: at the end of the event those below some `j` are PENDING with their place in the
order as their rank, and the next step waits, to go on from there when it is taken, or the list is SEALED with the order in
the queue and the sequencer READY, of which the step that shows it may wait (log 3). -/
def Obligations.OrderBuildRanksTheRecords : Prop :=
  (∀ (s : State), ∀ p, s.plan = some p →
    let bandOf (d : Nat) : Int := ((s.defect d).y.toInt + 200000000).fdiv p.bandHeight
    let x (d : Nat) : Int := (s.defect d).x.toInt
    let priority (d : Nat) : Nat := getField (s.defect d).info 16 2
    let before (a b : Nat) : Prop := priority b < priority a ∨ (priority a = priority b ∧ (bandOf a < bandOf b ∨
      (bandOf a = bandOf b ∧ ((bandOf a % 2 = 0 ∧ x a < x b) ∨ (bandOf a % 2 ≠ 0 ∧ x b < x a) ∨ (x a = x b ∧ a < b)))))
    (formOrder s).Perm (List.range s.defects.n) ∧ (formOrder s).Pairwise before) ∧
  (∀ s : State, Quiet s → s.defects.list = .building → s.defects.formed = false →
    ∃ t, exec .orderFormed s = .next t ∧ ∃ j, j ≤ s.defects.n ∧ t.defects.order = formOrder s ∧
      t.defects.n = s.defects.n ∧
      (∀ d, d < j → t.defect d =
        { x := (s.defect d).x, y := (s.defect d).y, info := (s.defect d).info, tag := (s.defect d).tag, st := .pending,
          rank := (formOrder s).idxOf d }) ∧
      (∀ d, j ≤ d → t.defect d = s.defect d) ∧
      ((t.waiting = [[.buildRecord j]] ∧ t.defects.list = .building ∧ t.defects.queue = s.defects.queue ∧ t.seq = s.seq) ∨
       (j = s.defects.n ∧ (t.waiting = [] ∨ ∃ cs, t.waiting = [[.publish cs]] ∧ cs.map (·.word) = dispatchWords) ∧
        t.defects.list = .sealed ∧ t.defects.queue = formOrder s ∧
        t.seq = { s.seq with st := .ready, phase := .noPhase, reason := .noReason })) ∧
      t.mem = s.mem ∧ t.motion = s.motion ∧ t.focus = s.focus ∧ t.hand = s.hand) ∧
  (∀ s : State, Inv s = true → s.inReset = false → s.made = [] → s.sequel = [] → s.named = [] → Room s 4 →
    s.defects.list = .building → ∀ k, s.waiting = [[.buildRecord k]] → k ≤ s.defects.n →
    (∀ d, k ≤ d → (s.defect d).st = .unlisted) →
    ∃ t, exec .waitingStepTaken s = .next t ∧ ∃ j, k ≤ j ∧ j ≤ s.defects.n ∧ (k < s.defects.n → k < j) ∧
      (∀ d, t.defect d = if k ≤ d ∧ d < j then
        { x := (s.defect d).x, y := (s.defect d).y, info := (s.defect d).info, tag := (s.defect d).tag, st := .pending,
          rank := s.defects.order.idxOf d }
        else s.defect d) ∧
      (∀ c, t.stateCount c = if c = 1 then s.stateCount 1 + (j - k) else s.stateCount c) ∧
      ((t.waiting = [[.buildRecord j]] ∧
        t = { s with
          waiting := t.waiting, queue := t.queue
          defects := { s.defects with recs := t.defects.recs, counts := t.defects.counts } }) ∨
       (j = s.defects.n ∧ (t.waiting = [] ∨ ∃ cs, t.waiting = [[.publish cs]] ∧ cs.map (·.word) = dispatchWords) ∧
        t = { s with
          waiting := t.waiting, queue := t.queue
          defects := { s.defects with
            recs := t.defects.recs, counts := t.defects.counts, list := .sealed, queue := s.defects.order }
          seq := { s.seq with st := .ready, phase := .noPhase, reason := .noReason } })))

/-- R151: a write to words 0 to 3 of a sealed record passes to memory, its copy stays, and SEALED_WRITE is reported. R155:
the dispositions, refused with STATE, RANGE or STATE in this order, or putting the record and the queue as the rule says; a
skip is counted (stated while no lot is OPEN; the counting for an open lot has a statement of its own). -/
def Obligations.SealedRecordsAreDisposed : Prop :=
  (∀ (s : State) (r : BitVec 12) (k : Fin 4) (be : BitVec 4) (v : Word) (more : Bool), ∀ a,
    Takes s (recordWord r.toNat k.val) a → be ≠ 0 → s.defects.list ≠ .empty → r.toNat < s.defects.n →
    ∃ t, exec (.sealedWrite r k be v more) s = .next t ∧
      t = { s.hostDone a be v more with report := { s.report with events := s.report.events ||| 8 } } ∧
      StoresOnly s t a) ∧
  (∀ (s : State) (r : BitVec 12) (more : Bool), ∀ a, Takes s (recordWord r.toNat 4) a → Room s 6 →
    s.lot.st ≠ .opened →
    let d := r.toNat
    let refused (c : Instr) (v : Word) (code : Code) : Prop := ∃ t, exec c s = .next t ∧
      t.defect d = { s.defect d with disposition := code } ∧ (∀ j, j ≠ d → t.defect j = s.defect j) ∧
      t = { s.hostDone a 15 v more with defects := { s.defects with recs := t.defects.recs }, queue := t.queue } ∧
      Publishes s t [recordWord d 7] ∧ StoresOnly s t a
    let moved (c : Instr) (v : Word) (new : DefectState) (q : List Nat) (counted : List Nat) : Prop :=
      ∃ t, exec c s = .next t ∧
      t.defect d = { s.defect d with st := new, disposition := .ok } ∧ (∀ j, j ≠ d → t.defect j = s.defect j) ∧
      CountsMove s t (s.defect d).st.num new.num ∧ CountedForWafer s t counted ∧
      t = { s.hostDone a 15 v more with
        defects := { s.defects with recs := t.defects.recs, counts := t.defects.counts, queue := q }
        lot := { s.lot with attrs := t.lot.attrs }, queue := t.queue } ∧
      StoresOnly s t a
    (s.defects.list = .building → refused (.skipDefect r more) 1 .state ∧ refused (.unskipDefect r more) 2 .state) ∧
    (s.defects.list ≠ .building → s.defects.n ≤ d →
      refused (.skipDefect r more) 1 .range ∧ refused (.unskipDefect r more) 2 .range) ∧
    (s.defects.list ≠ .building → d < s.defects.n →
      ((s.defect d).st ≠ .pending → refused (.skipDefect r more) 1 .state) ∧
      ((s.defect d).st = .pending → moved (.skipDefect r more) 1 .skipped (s.defects.queue.erase d) [2]) ∧
      ((s.defect d).st ≠ .skipped ∨ s.seq.st = .done → refused (.unskipDefect r more) 2 .state) ∧
      ((s.defect d).st = .skipped → s.seq.st ≠ .done →
        moved (.unskipDefect r more) 2 .pending (s.defects.queue ++ [d]) [])))

/-! ### Chapter 9: the revisit sequencer -/

/-- R163, R164, R167, R180: the controls in the states and conditions that refuse them, each check in its order; a refused
control makes one step on the sequencer result word and changes nothing else. -/
def Obligations.RefusedControlsChangeNothing : Prop :=
  ∀ (s : State) (more : Bool), ∀ a, Takes s seqControl a →
    let refused (c : Instr) (d : Word) (r : Code) : Prop := ∃ t, exec c s = .next t ∧
      t = { s.hostDone a 15 d more with seq := { s.seq with result := r }, queue := t.queue } ∧
      Publishes s t [seqResultWord] ∧ StoresOnly s t a
    let plain := s.seq.st = .paused ∧ s.seq.reason ≠ .ring
    let flagged := s.seq.st = .running ∨ (s.seq.st = .paused ∧ s.seq.reason = .ring)
    let startable := s.seq.st = .ready ∨ (s.seq.st = .done ∧ s.stateCount 1 ≠ 0)
    let resumable := (plain ∨ s.seq.st = .halted) ∧ ¬(s.seq.st = .paused ∧ s.seq.reason = .fault ∧ s.hand.held = true)
    let probeable := s.seq.st = .idle ∨ s.seq.st = .ready ∨ plain ∨ s.seq.st = .done
    let mounted := ∃ w, s.hand.stage = some w ∧ (s.posn 52).occupant = some w
    (¬startable → refused (.start more) 1 .state) ∧
    (startable → ¬ReviewReady s → refused (.start more) 1 .state) ∧
    (startable → ReviewReady s → ¬Permitted s → refused (.start more) 1 .interlock) ∧
    (¬flagged → refused (.pause more) 2 .state) ∧
    (¬resumable → refused (.resume more) 3 .state) ∧
    (resumable → ¬mounted → refused (.resume more) 3 .state) ∧
    (resumable → mounted → ¬Permitted s → refused (.resume more) 3 .interlock) ∧
    (¬flagged → ¬plain → s.seq.st ≠ .halted → refused (.stop more) 4 .state) ∧
    (¬flagged → ¬plain → s.seq.st ≠ .halted → s.seq.st ≠ .probing → refused (.abandon more) 5 .state) ∧
    (¬probeable → refused (.probe more) 6 .state) ∧
    (probeable → ¬ReviewReady s → refused (.probe more) 6 .state) ∧
    (probeable → ReviewReady s → ¬Permitted s → refused (.probe more) 6 .interlock)

/-- R164, R167, R169, R170: an accepted START or RESUME enters RUNNING, selects the head of the queue whose quota is not
reached, and asks for its target: the shadow target does not match and becomes empty, and a forward request goes to the
engine. START makes an ALIGNED stage wafer REVIEWING. R182: a START whose one queued defect has its quota reached retires it
QUOTA, without a report, and comes to DONE with cause EMPTY (no lot is OPEN). -/
def Obligations.StartAndResumeSelectTheHead : Prop :=
  ∀ (s : State) (more : Bool), ∀ a, Takes s seqControl a → Room s 6 → Permitted s →
    ∀ d, s.defects.queue.head? = some d →
    let startable := (s.seq.st = .ready ∨ (s.seq.st = .done ∧ s.stateCount 1 ≠ 0)) ∧ ReviewReady s
    let resumable := ((s.seq.st = .paused ∧ s.seq.reason ≠ .ring) ∨ s.seq.st = .halted) ∧
      ¬(s.seq.st = .paused ∧ s.seq.reason = .fault ∧ s.hand.held = true) ∧
      (∃ w, s.hand.stage = some w ∧ (s.posn 52).occupant = some w)
    let reviewed (t : State) : Prop := ∀ w, t.wafer w = if s.hand.stage = some w ∧ (s.wafer w).progress = .aligned
      then { s.wafer w with progress := .reviewing } else s.wafer w
    let x := (s.defect d).x.toInt
    let y := (s.defect d).y.toInt
    let target (t : State) : Prop :=
      t.seq = { s.seq with
        st := .running, phase := .target, reason := .noReason, fPause := false, fStop := false, fTrip := false
        fHalt := false, fFault := false, sel := some d, current := none, target := none, cx := x, cy := y
        cPrior := getField (s.defect d).info 0 4, cTag := (s.defect d).tag, outstanding := some .target
        targetWait := false, selecting := false, result := .ok } ∧
      t.xform = arbitrated (forwardAnswer s) { s.xform with seqPlace := some (x, y) } ∧
      t.motion = { s.motion with shadow := none }
    (quotaReached s (s.defect d).priorClass = false →
      (∀ r, s.motion.shadow = some r → r.index ≠ d ∨ r.seqNo ≠ s.xform.seqNo) →
      s.seq.outstanding = none →
      (startable → ∃ t, exec (.start more) s = .next t ∧ target t ∧ reviewed t ∧
          t = { s.hostDone a 15 1 more with
            seq := t.seq, xform := t.xform, motion := t.motion, hand := { s.hand with wafers := t.hand.wafers }
            queue := t.queue } ∧ StoresOnly s t a) ∧
      (resumable → NoFlags s.seq → ∃ t, exec (.resume more) s = .next t ∧ target t ∧
          t = { s.hostDone a 15 3 more with
            seq := t.seq, xform := t.xform, motion := t.motion, queue := t.queue } ∧ StoresOnly s t a)) ∧
    (quotaReached s (s.defect d).priorClass = true → startable → s.queue = [] → s.defects.queue = [d] →
      (s.defect d).st = .pending → s.report.seqSlot = none → s.lot.st ≠ .opened →
      ∃ t, exec (.start more) s = .next t ∧ reviewed t ∧
        t.defect d = { s.defect d with st := .quota, outcome := .quota } ∧ (∀ j, j ≠ d → t.defect j = s.defect j) ∧
        t.defects.queue = [] ∧ CountsMove s t 1 6 ∧ CountedForWafer s t [3] ∧
        t.seq.st = .done ∧ t.seq.phase = .noPhase ∧ t.seq.current = none ∧ t.seq.result = .ok ∧
        t.report = { s.report with seqSlot := some {
          kind := 2, qualifier := 0, wafer := s.hand.stage.getD 63, w1 := halves (t.stateCount 3) (t.stateCount 4)
          w2 := halves (t.stateCount 7) (t.stateCount 5), w3 := halves (t.stateCount 6) (t.stateCount 1) } } ∧
        t.motion = s.motion ∧ t.xform = s.xform ∧ t.focus = s.focus ∧ StoresOnly s t a)

/-- R166, R168, R176, R182: PAUSE and STOP in RUNNING and PAUSED(RING), and ABANDON in RESOLVE and PAUSED(RING), set their
flags and leave the revisit alone. STOP at rest, and ABANDON at rest or in RUNNING outside RESOLVE, end the run in DONE with
their cause and stage the WAFER_DONE report; ABANDON makes a stop request, aborts a focus attempt in progress, and returns
the defect of a revisit. With the staging slot full, STOP at rest waits in PAUSED(RING), and the wait is counted. What last Z
becomes at the abort of an attempt for which no Z was set is the model's choice (log 32). -/
def Obligations.ControlsEndTheRun : Prop :=
  ∀ (s : State) (more : Bool), ∀ a, Takes s seqControl a →
    let flagged (c : Instr) (d : Word) (q : Sequencer) : Prop := ∃ t, exec c s = .next t ∧
      t = { s.hostDone a 15 d more with seq := { q with result := .ok }, queue := t.queue } ∧
      Publishes s t (dispatchWords ++ [seqResultWord]) ∧ StoresOnly s t a
    let ring := s.seq.st = .paused ∧ s.seq.reason = .ring
    let resting := (s.seq.st = .paused ∧ s.seq.reason ≠ .ring) ∨ s.seq.st = .halted
    let done (cause : Nat) (t : State) : Prop :=
      t.seq.st = .done ∧ t.seq.phase = .noPhase ∧ t.seq.reason = .noReason ∧ t.seq.current = none ∧
      t.seq.verdictTimer = none ∧ NoFlags t.seq ∧ t.seq.result = .ok ∧
      t.report = { s.report with seqSlot := some {
        kind := 2, qualifier := cause, wafer := s.hand.stage.getD 63, w1 := halves (t.stateCount 3) (t.stateCount 4)
        w2 := halves (t.stateCount 7) (t.stateCount 5), w3 := halves (t.stateCount 6) (t.stateCount 1) } }
    (s.seq.st = .running ∨ ring → flagged (.pause more) 2 { s.seq with fPause := true } ∧
      flagged (.stop more) 4 { s.seq with fStop := true }) ∧
    ((s.seq.st = .running ∧ s.seq.phase = .resolve) ∨ ring → flagged (.abandon more) 5 { s.seq with fStop := true }) ∧
    (s.report.seqSlot = none →
      (resting → ∃ t, exec (.stop more) s = .next t ∧ done 1 t ∧
        t = { s.hostDone a 15 4 more with seq := t.seq, report := t.report, queue := t.queue } ∧ StoresOnly s t a) ∧
      (resting ∨ (s.seq.st = .running ∧ (s.seq.phase = .select ∨ s.seq.phase = .target)) →
        ∃ t, exec (.abandon more) s = .next t ∧ done 2 t ∧ StopRequested s.now s.motion t.motion ∧
          t = { s.hostDone a 15 5 more with
            seq := t.seq, report := t.report, motion := t.motion, queue := t.queue } ∧ StoresOnly s t a) ∧
      (∀ d, Revisiting s d → activePhase s.seq = true → AttemptByPhase s → Room s 12 →
        ∃ t, exec (.abandon more) s = .next t ∧ done 2 t ∧ StopRequested s.now s.motion t.motion ∧
          (moving s.motion = true → t.motion.move = .stopped ∧ t.motion.stopCause = .request) ∧
          Returned s t d ∧ AttemptAborted s t ∧
          t = { s.hostDone a 15 5 more with
            seq := t.seq, report := t.report, motion := t.motion, defects := t.defects, focus := t.focus
            queue := t.queue, openCount := t.openCount } ∧
          StoresOnly s t a)) ∧
    (resting → s.report.seqSlot ≠ none → s.queue = [] → s.lot.st ≠ .opened →
      ∃ t, exec (.stop more) s = .next t ∧
        t.seq.st = .paused ∧ t.seq.reason = .ring ∧ t.seq.staging = some (.waferDone .stop) ∧ t.seq.result = .ok ∧
        CountedForWafer s t [14] ∧
        t = { s.hostDone a 15 4 more with
          seq := t.seq, lot := { s.lot with attrs := t.lot.attrs }, queue := t.queue
          report := { s.report with stalls := min 65535 (s.report.stalls + 1) } } ∧ StoresOnly s t a)

/-- R180, R181: an accepted PROBE records the prior state and asks for the target of the probe coordinates as they stand;
an ABANDON ends it with outcome ABANDONED, a stop request and, in FOCUS, the abort of its attempt, and returns to the prior
state. The accepted Z is then 0; where no attempt was made, the source and samples shown are free values (log 14), and what
last Z becomes at the abort of an attempt for which no Z was set is the model's choice (log 32). -/
def Obligations.ProbesStartAndEnd : Prop :=
  ∀ (s : State) (more : Bool), ∀ a, Takes s seqControl a →
    let x := s.seq.probeX.toInt
    let y := s.seq.probeY.toInt
    ((s.seq.st = .idle ∨ s.seq.st = .ready ∨ (s.seq.st = .paused ∧ s.seq.reason ≠ .ring) ∨ s.seq.st = .done) →
      ReviewReady s → Permitted s → s.seq.outstanding = none →
      ∃ t, exec (.probe more) s = .next t ∧
        t.seq.probeResult.acceptedZ = 0 ∧
        t = { s.hostDone a 15 6 more with
          queue := t.queue
          openCount := t.openCount
          xform := arbitrated (forwardAnswer s) { s.xform with seqPlace := some (x, y) }
          seq := { s.seq with
            st := .probing, phase := .target, reason := .noReason, prior := some (s.seq.st, s.seq.reason), px := x
            py := y, probeOutcome := .inProgress, probeResult := t.seq.probeResult
            outstanding := some .probe, targetWait := false, result := .ok } } ∧
        Publishes s t (probeResults ++ dispatchWords ++ [seqResultWord]) ∧ StoresOnly s t a) ∧
    (s.seq.st = .probing → AttemptByPhase s → Room s 10 → ∃ t, exec (.abandon more) s = .next t ∧
      ProbeEnded s t .abandoned ∧ AttemptAborted s t ∧ t.seq.probeResult.acceptedZ = 0 ∧
      (∀ b pr, s.focus.attempt = some b → b.pred = some pr → t.seq.probeResult =
        { z0 := pr.z0, source := pr.source, clamped := pr.clamped, cell := some pr.cell, samples := b.sample }) ∧
      t.seq.result = .ok ∧ StopRequested s.now s.motion t.motion ∧
      (moving s.motion = true → t.motion.move = .stopped ∧ t.motion.stopCause = .request) ∧
      t = { s.hostDone a 15 5 more with
        seq := t.seq, motion := t.motion, focus := t.focus, queue := t.queue, openCount := t.openCount } ∧
      StoresOnly s t a)

/-- R174: a verdict is refused with STALE or STATE, in this order, in one step on the verdict result word. An accepted one
images, charges or rejects the defect (R154, R175), and its word is finished with its step; after REIMAGE and REJECT the
revisit then runs into the pause that is pending (R165, R176). After IMAGED, which moves the node nearest the defect (R139),
either it has done so too, or RESOLVE's later steps wait for entries (log 3), the last of them the one that stages the
report. R176, R182: that step stages the REVISIT report of the defect as it stands, IMAGED or FAILED, and the revisit ends;
with the staging slot full it begins a staging wait, PAUSED(RING), which is counted. -/
def Obligations.VerdictsAreTaken : Prop :=
  (∀ (s : State) (cls : BitVec 4) (idx : BitVec 12) (other : Word) (more : Bool), ∀ a, Takes s verdictWord a →
    let d := idx.toNat
    let refused (c : Instr) (code : Nat) (r : Code) : Prop := ∃ t, exec c s = .next t ∧
      t = { s.hostDone a 15 (verdictData code cls idx other) more with
        seq := { s.seq with vResult := r, vCode := BitVec.ofNat 2 code, vIndex := idx }, queue := t.queue } ∧
      Publishes s t [verdictResultWord] ∧ StoresOnly s t a
    let all (r : Code) : Prop := refused (.verdictImaged cls idx other more) 1 r ∧
      refused (.verdictReimage cls idx other more) 2 r ∧ refused (.verdictReject cls idx other more) 3 r
    let accepted (code : Nat) (t : State) : Prop := t.seq.vResult = .ok ∧ t.seq.vCode = BitVec.ofNat 2 code ∧
      t.seq.vIndex = idx ∧ t.seq.verdictTimer = none ∧ t.hReady = true ∧ t.hostBusy = false ∧ t.motion = s.motion ∧
      t.mem = writeWordAt s.mem a 15 (verdictData code cls idx other) ∧ StoresOnly s t a
    (s.seq.current ≠ some d → all .stale) ∧
    (s.seq.current = some d → s.seq.phase ≠ .expose → all .state) ∧
    (∀ p, s.plan = some p → s.queue = [] → Revisiting s d → s.seq.phase = .expose → PauseAlone s.seq →
      s.report.seqSlot = none → s.lot.st ≠ .opened → s.focus.attempt = none → s.focus.clearing = 0 →
      (∃ t, exec (.verdictReimage cls idx other more) s = .next t ∧ AttemptCharged s t p d .reimage [] ∧
        HostPaused t.seq ∧ accepted 2 t) ∧
      (∃ t, exec (.verdictReject cls idx other more) s = .next t ∧
        t.defect d = { s.defect d with st := .failed, outcome := .rejected } ∧
        (∀ j, j ≠ d → t.defect j = s.defect j) ∧ t.defects.queue = s.defects.queue ∧ CountsMove s t 2 4 ∧
        CountedForWafer s t [7] ∧ Resolved s t d ∧ HostPaused t.seq ∧ accepted 3 t) ∧
      (∃ t, exec (.verdictImaged cls idx other more) s = .next t ∧
        t.defect d = { s.defect d with
          st := .imaged, reviewClass := cls, acceptedZ := ofSigned s.seq.focus.acceptedZ, outcome := .imaged } ∧
        (∀ j, j ≠ d → t.defect j = s.defect j) ∧ t.defects.queue = s.defects.queue ∧ CountsMove s t 2 3 ∧
        (∀ c, t.imagedCount c = s.imagedCount c + if c = (s.defect d).priorClass then 1 else 0) ∧
        (∀ n, t.node n = if n = nearestNode (cellOf p s.seq.cx s.seq.cy)
          then learnNode (s.node n) s.seq.focus.acceptedZ else s.node n) ∧
        (s.hand.stage.isSome = true → (t.attr 1).wafer = min 4294967295 ((s.attr 1).wafer + 1)) ∧ accepted 1 t ∧
        ((Resolved s t d ∧ HostPaused t.seq) ∨
          (t.seq.phase = .resolve ∧ t.seq.current = some d ∧ t.waiting.flatten.getLast? = some (.resolveEnd true)))))) ∧
  (∀ s : State, Inv s = true → s.inReset = false → s.made = [] → s.sequel = [] → s.named = [] → Room s 6 →
    s.seq.st = .running → s.seq.phase = .resolve → ∀ d, s.seq.current = some d →
    ∀ ops : Task, ops = [.resolveEnd true] ∨ ops = [.visited, .resolveEnd true] → s.waiting = [ops] →
    let v := s.defect d
    let report (r : Record) : Prop := r.kind = 1 ∧ r.qualifier = 0 ∧ r.wafer = s.hand.stage.getD 63 ∧
      r.w1 = BitVec.ofNat 32 d ∧ LaidOut r.w2 [(0, 4, v.outcome.num), (8, 4, v.reviewClass.toNat), (12, 2, v.attempts),
        (16, 8, getField v.info 8 8)] ∧ r.w3 = (if v.st = .imaged then v.acceptedZ else v.tag)
    let visited (t : State) : Prop := ∀ w, t.wafer w = if s.hand.stage = some w ∧ .visited ∈ ops
      then { s.wafer w with visited := (s.wafer w).visited + 1 } else s.wafer w
    (s.report.seqSlot = none → PauseAlone s.seq → ∃ t, exec .waitingStepTaken s = .next t ∧ visited t ∧ HostPaused t.seq ∧
      ∃ r, report r ∧ t = { s with
        waiting := [], seq := t.seq, queue := t.queue, hand := { s.hand with wafers := t.hand.wafers }
        report := { s.report with seqSlot := some r } }) ∧
    (s.report.seqSlot ≠ none → s.lot.st ≠ .opened → ∃ t, exec .waitingStepTaken s = .next t ∧ visited t ∧
      CountedForWafer s t [14] ∧ ∃ r, report r ∧ t = { s with
        waiting := [], queue := t.queue, hand := { s.hand with wafers := t.hand.wafers }
        lot := { s.lot with attrs := t.lot.attrs }
        seq := { s.seq with st := .paused, reason := .ring, staging := some (.revisit r) }
        report := { s.report with stalls := min 65535 (s.report.stalls + 1) } }))

/-- R92, R134, R173, R175: the move timeout in MOVE or SETTLE, the focus settle timeout and the sample timeout in FOCUS, and
the verdict timeout in EXPOSE are failed attempts with their outcomes; the revisit then runs into the pause that is
pending. The clock is at the expiry (log 16). -/
def Obligations.TimeoutsFailTheAttempt : Prop :=
  ∀ s : State, Quiet s → s.queue = [] → ∀ p, s.plan = some p → ∀ d, Revisiting s d →
    PauseAlone s.seq → s.report.seqSlot = none → s.lot.st ≠ .opened →
    (∀ t0, s.seq.verdictTimer = some t0 → s.seq.phase = .expose → s.focus.attempt = none →
      ∃ t, exec .verdictTimeout s = .next t ∧ t.now = max s.now (t0 + 1000 * p.verdictTimeout) ∧
        AttemptCharged s t p d .verdictTimeout [] ∧ HostPaused t.seq ∧ t.motion = s.motion ∧ t.mem = s.mem) ∧
    (∀ t0, s.motion.moveTimer = some t0 → (s.seq.phase = .move ∨ s.seq.phase = .settle) → s.focus.attempt = none →
      moving s.motion = true → ∃ t, exec .moveTimeout s = .next t ∧ t.now = max s.now (t0 + 1000 * p.moveTimeout) ∧
        AttemptCharged s t p d .moveTimeout [] ∧ HostPaused t.seq ∧ t.motion.move = .timedOut ∧
        StopRequested t.now s.motion t.motion ∧ t.mem = s.mem) ∧
    (∀ b, s.focus.attempt = some b → ∀ pr, b.pred = some pr → s.seq.phase = .focus → b.ending = false →
      b.kind = .revisit →
      let fallback := if pr.source = .interpolated then [] else [10]
      let ended (detail : TimeoutDetail) (t : State) : Prop := t.focus.attempt = none ∧
        t.focus.last = { outcome := .focusTimeout, detail := detail, source := pr.source, clamped := pr.clamped
                         samples := b.sample, err := b.err } ∧ t.focus.base = s.focus.base ∧
        AttemptCharged s t p d .focusTimeout fallback ∧ HostPaused t.seq ∧ t.motion = s.motion ∧ t.mem = s.mem
      (∀ t0, s.focus.settleTimer = some t0 → ∃ t, exec .focusSettleTimeout s = .next t ∧
        t.now = max s.now (t0 + 1000 * p.focusSettleTimeout) ∧ ended .settle t) ∧
      (∀ t0, s.focus.sampleTimer = some t0 → ∃ t, exec .sampleTimeout s = .next t ∧
        t.now = max s.now (t0 + 1000 * p.sampleTimeout) ∧ ended .sample t))
/-! ### Chapters 10 to 12: the lot, the reports and the layouts -/

/-- R185, R186: OPEN is refused with STATE, RANGE or BUSY, in this order, or makes its nineteen steps as they fit: each
attribute zeroed but for its threshold, the histogram by halves, and last the lot OPEN with the copies latched, with which
the word is finished. R186 lists these changes in one event and gives them more words than a step can name: the steps, each
taken as the queue has room, are the model's (log 3), and so is the lot's state in the last of them, read from R185's "last
step", though R186 lists it first. -/
def Obligations.OpenLotZeroesTheFigures : Prop :=
  (∀ (s : State) (more : Bool), ∀ a, Takes s lotControl a → s.plan ≠ none →
    let refused (r : Code) : Prop := ∃ t, exec (.openLot more) s = .next t ∧
      t = { s.hostDone a 15 1 more with lot := { s.lot with result := r }, queue := t.queue } ∧
      Publishes s t lotStateWords ∧ StoresOnly s t a
    let bad := getField s.lot.tagCopy 0 16 = 0 ∨ 50 < s.lot.expectedCopy.toNat
    (s.lot.st = .opened → refused .state) ∧
    (s.lot.st ≠ .opened → bad → refused .range) ∧
    (s.lot.st ≠ .opened → ¬bad → (s.report.lotSlot ≠ none ∨ s.lot.deferred ≠ none) → refused .busy) ∧
    (s.lot.st ≠ .opened → ¬bad → s.report.lotSlot = none → s.lot.deferred = none →
      ∃ t, exec (.openLot more) s = .next t ∧ ∃ j, 1 ≤ j ∧ j ≤ 5 ∧
        (∀ i, t.attr i = if i < j then { threshold := (s.attr i).threshold } else s.attr i) ∧
        t.lot = { s.lot with attrs := t.lot.attrs } ∧
        t.waiting = [openSteps.drop j] ∧
        t = { s.memWrite a 15 1 with
          lot := t.lot, hReady := false, hostBusy := true, hostMore := more, hostWaits := none, waiting := t.waiting
          queue := t.queue } ∧
        StoresOnly s t a)) ∧
  (∀ s : State, s.inReset = false → s.made = [] → s.sequel = [] → s.named = [] → s.queue = [] → s.plan ≠ none →
    (∀ i, i < 16 → s.waiting = [openSteps.drop i] → ∃ t, exec .waitingStepTaken s = .next t ∧
      t = { s with lot := t.lot, queue := t.queue, waiting := [openSteps.drop (i + 1)] } ∧
      (∀ j, t.attr j = if j = i then { threshold := (s.attr i).threshold } else s.attr j) ∧
      t.lot = { s.lot with
        attrs := t.lot.attrs
        sumLot := if i = 8 then 0 else s.lot.sumLot, cntLot := if i = 8 then 0 else s.lot.cntLot
        sumWafer := if i = 8 then 0 else s.lot.sumWafer, cntWafer := if i = 8 then 0 else s.lot.cntWafer } ∧
      Publishes s t [attrWord i 0, attrWord i 1, attrWord i 3]) ∧
    (∀ k, k < 2 → s.waiting = [openSteps.drop (16 + k)] → ∃ t, exec .waitingStepTaken s = .next t ∧
      t = { s with lot := { s.lot with hist := t.lot.hist }, queue := t.queue, waiting := [openSteps.drop (17 + k)] } ∧
      (∀ c, c < 16 → t.lot.hist.get 0 c = if c / 8 = k then 0 else s.lot.hist.get 0 c) ∧
      Publishes s t ((List.range 8).map fun c => histWord (8 * k + c))) ∧
    (s.waiting = [openSteps.drop 18] → ∃ t, exec .waitingStepTaken s = .next t ∧
      t = { s with
        lot := { s.lot with
          st := .opened, result := .ok, tag := s.lot.tagCopy.setWidth 16, expected := s.lot.expectedCopy.toNat
          joined := 0, tripped := false, firstTrip := 0, closeKind := .noClose, short := false }
        hReady := true, hostBusy := false, map := if s.hostMore then s.map else s.plan, waiting := []
        queue := t.queue } ∧
      Publishes s t lotStateWords))

/-- R188, R189: CLOSE is refused with STATE or BUSY and FORCE_CLOSE with STATE or BUSY, each in its order. Accepted, the lot
is CLOSED with its kind and the short flag, its members leave it in ascending index, each in its step, and in the last step
the result is OK and the LOT report is staged, or deferred while the slot holds a record. From an empty queue the steps of up
to seven members fit; with more, the eighth and those behind it wait, and are taken as entries come free (log 3). -/
def Obligations.CloseEndsTheLot : Prop :=
  (∀ (s : State) (more : Bool), ∀ a, Takes s lotControl a →
    let refused (c : Instr) (d : Word) (r : Code) : Prop := ∃ t, exec c s = .next t ∧
      t = { s.hostDone a 15 d more with lot := { s.lot with result := r }, queue := t.queue } ∧
      Publishes s t lotStateWords ∧ StoresOnly s t a
    let busy := s.seq.st = .running ∨ s.seq.st = .probing ∨ s.seq.st = .halted
    let away := ∃ w, w < 50 ∧ (s.wafer w).member = true ∧ (s.wafer w).place ≠ .pos w
    let members := (List.range 50).filter fun w => (s.wafer w).member
    let short := decide (s.lot.expected ≠ 0 ∧ (s.attr 0).value < s.lot.expected)
    let closing (c : Instr) (d : Word) (kind : CloseKind) : Prop := ∃ t, exec c s = .next t ∧
      (∀ w, t.wafer w = if w ∈ members.take 7 then { s.wafer w with member := false, lotTag := 0 } else s.wafer w) ∧
      t = { s.memWrite a 15 d with
        lot := { s.lot with st := .closed, closeKind := kind, short := short }
        hand := { s.hand with wafers := t.hand.wafers }, queue := t.queue
        hReady := false, hostBusy := true, hostMore := more, hostWaits := none
        waiting := [(members.drop 7).map StepOp.clearMember ++ [.lotReport, .finishHost]] } ∧
      StoresOnly s t a
    let closed (c : Instr) (d : Word) (kind : CloseKind) : Prop := ∃ t, exec c s = .next t ∧
      t.lot = { s.lot with
        st := .closed, closeKind := kind, result := .ok, deferred := t.lot.deferred, short := short } ∧
      (∀ w, t.wafer w = if w < 50 ∧ (s.wafer w).member = true then { s.wafer w with member := false, lotTag := 0 }
        else s.wafer w) ∧
      (∃ r : Record, (if s.report.lotSlot = none then t.report.lotSlot else t.lot.deferred) = some r ∧
        r.kind = 6 ∧ r.qualifier = kind.num ∧ r.wafer = 63 ∧ r.w1 = s.lot.tag.setWidth 32 ∧
        r.w2 = halves (min 65535 (s.attr 1).value) (min 65535 (s.attr 5).value) ∧
        LaidOut r.w3 [(0, 8, min 255 (s.attr 0).value), (8, 8, min 255 s.lot.joined), (16, 6, s.lot.expected),
          (22, 1, s.lot.tripped.toNat), (24, 4, s.lot.firstTrip), (28, 1, short.toNat)] ∧
        t.report = (if s.report.lotSlot = none then { s.report with lotSlot := some r } else s.report) ∧
        (s.report.lotSlot = none → t.lot.deferred = s.lot.deferred)) ∧
      t = { s.hostDone a 15 d more with
        lot := t.lot, hand := { s.hand with wafers := t.hand.wafers }, report := t.report, queue := t.queue } ∧
      StoresOnly s t a
    (s.lot.st ≠ .opened → refused (.closeLot more) 2 .state ∧ refused (.forceClose more) 3 .state) ∧
    (s.lot.st = .opened → busy → refused (.closeLot more) 2 .busy ∧ refused (.forceClose more) 3 .busy) ∧
    (s.lot.st = .opened → ¬busy → (away ∨ s.report.lotSlot ≠ none) → refused (.closeLot more) 2 .busy) ∧
    (s.lot.st = .opened → ¬busy → ¬away → s.report.lotSlot = none → s.queue = [] → s.plan ≠ none →
      (members.length ≤ 7 → closed (.closeLot more) 2 .close) ∧ (7 < members.length → closing (.closeLot more) 2 .close)) ∧
    (s.lot.st = .opened → ¬busy → s.queue = [] → s.plan ≠ none →
      (members.length ≤ 7 → closed (.forceClose more) 3 .force) ∧ (7 < members.length → closing (.forceClose more) 3 .force))) ∧
  (∀ s : State, Inv s = true → s.inReset = false → s.made = [] → s.sequel = [] → s.named = [] → s.queue = [] → s.plan ≠ none →
    (∀ (w : Nat) (v : StepOp) (ops : Task), w < 50 → s.waiting = [.clearMember w :: v :: ops] →
      (v = .lotReport ∨ ∃ u, u < 50 ∧ u ≠ w ∧ v = .clearMember u) → ∃ t, exec .waitingStepTaken s = .next t ∧
      (∀ u, t.wafer u = if u = w then { s.wafer w with member := false, lotTag := 0 } else s.wafer u) ∧
      t = { s with waiting := [v :: ops], hand := { s.hand with wafers := t.hand.wafers }, queue := t.queue } ∧
      Publishes s t [waferStateWord w, waferTagWord w]) ∧
    (s.waiting = [[.lotReport, .finishHost]] → ∃ t, exec .waitingStepTaken s = .next t ∧
      ∃ r : Record, (r.kind = 6 ∧ r.qualifier = s.lot.closeKind.num ∧ r.wafer = 63 ∧ r.w1 = s.lot.tag.setWidth 32 ∧
        r.w2 = halves (min 65535 (s.attr 1).value) (min 65535 (s.attr 5).value) ∧
        LaidOut r.w3 [(0, 8, min 255 (s.attr 0).value), (8, 8, min 255 s.lot.joined), (16, 6, s.lot.expected),
          (22, 1, s.lot.tripped.toNat), (24, 4, s.lot.firstTrip), (28, 1, s.lot.short.toNat)]) ∧
      t = { s with
        waiting := [], queue := t.queue, hostBusy := false, hReady := true, map := if s.hostMore then s.map else s.plan
        lot := { s.lot with result := .ok, deferred := if s.report.lotSlot = none then s.lot.deferred else some r }
        report := if s.report.lotSlot = none then { s.report with lotSlot := some r } else s.report } ∧
      Publishes s t lotStateWords))

/-- R183, R187, R190, R192, R193, R194, R195: counting for an OPEN lot. A hand-over counts for the lot where its wafer is a
member, or where a fault concerns no wafer; its wafer value counts the stage wafer's alone; a value above a threshold that
is set trips the attribute. The lot's first trip sets the trip state and LOT_TRIP, stages the TRIP report, and, with
hold-on-trip set, holds a RUNNING or PAUSED(RING) sequencer. Stated for an encoder fault (attribute 11) outside the phases
with an ACTIVE defect. The figures of an IMAGED defect: the means, the maxima and the histogram. -/
def Obligations.LotCountsAndTrips : Prop :=
  (∀ (s : State) (axis : Axis) (ph : BitVec 2), Quiet s → Room s 9 → s.lot.st = .opened →
    let e := s.motion.encoder axis
    ((e.phase = 0 ∧ ph = 3) ∨ (e.phase = 3 ∧ ph = 0) ∨ (e.phase = 1 ∧ ph = 2) ∨ (e.phase = 2 ∧ ph = 1)) →
    moving s.motion = false → ¬(SeqEngaged s ∧ activePhase s.seq = true) →
    ∃ t, exec (.encoderTransition axis ph) s = .next t ∧ FaultCounted s t 11 ∧
      t.lot = { s.lot with attrs := t.lot.attrs, tripped := t.lot.tripped, firstTrip := t.lot.firstTrip } ∧
      t.hand = s.hand ∧ t.defects = s.defects ∧ t.focus = s.focus ∧ t.mem = s.mem) ∧
  (∀ s : State, Inv s = true → s.inReset = false → s.made = [] → s.sequel = [] → s.named = [] → Room s 8 →
    let mean (sum n : Nat) : Nat := if n = 0 then 0 else (sum + n / 2) / n
    let sumOf (old c : Nat) : Nat := min (2 ^ 48 - 1) (old + c)
    let cntOf (old : Nat) : Nat := min 4294967295 (old + 1)
    (∀ (w c : Nat) (counted : Bool), s.hand.stage = some w → s.waiting = [[.meanCorrection c (some w) counted]] →
      ∃ t, exec .waitingStepTaken s = .next t ∧
      let l := { s.lot with
        sumWafer := sumOf s.lot.sumWafer c, cntWafer := cntOf s.lot.cntWafer
        sumLot := if counted then sumOf s.lot.sumLot c else s.lot.sumLot
        cntLot := if counted then cntOf s.lot.cntLot else s.lot.cntLot }
      LotUpdated s t 8 (mean l.sumLot l.cntLot) (mean l.sumWafer l.cntWafer) counted ∧
      t.lot = { l with attrs := t.lot.attrs, tripped := t.lot.tripped, firstTrip := t.lot.firstTrip } ∧
      t = { s with waiting := [], lot := t.lot, seq := t.seq, report := t.report, queue := t.queue }) ∧
    (∀ (w c : Nat) (counted : Bool), s.hand.stage = some w → s.waiting = [[.maxCorrection c (some w) counted]] →
      ∃ t, exec .waitingStepTaken s = .next t ∧
      LotUpdated s t 9 (if counted then max (s.attr 9).value c else (s.attr 9).value) (max (s.attr 9).wafer c) counted ∧
      t.lot = { s.lot with attrs := t.lot.attrs, tripped := t.lot.tripped, firstTrip := t.lot.firstTrip } ∧
      t = { s with waiting := [], lot := t.lot, seq := t.seq, report := t.report, queue := t.queue }) ∧
    (∀ (c : Nat) (counted : Bool), s.waiting = [[.histogram c counted]] →
      ∃ t, exec .waitingStepTaken s = .next t ∧
      (∀ k, t.lot.hist.get 0 k = if k = c ∧ counted = true then cntOf (s.lot.hist.get 0 k) else s.lot.hist.get 0 k) ∧
      t = { s with waiting := [], lot := { s.lot with hist := t.lot.hist }, queue := t.queue } ∧
      Publishes s t (if counted = true then [histWord c] else [])))

/-- R198, R199, R200: a posting takes the record of the first full slot in the order fault, handling, sequencer, lot, writes
its four words at the producer index, and advances the index, the unread count and the sequence number; a full ring takes
none, and the posting that fills it reports RING_FULL. R176: a posting that empties the sequencer's slot ends its staging
wait, and with a pause pending the sequencer is then PAUSED(HOST). That the window is in force for postings as soon as a plan is,
even while the host port's map is still the old one, is the model's choice (log 38). -/
def Obligations.PostingTakesTheFirstSlot : Prop :=
  ∀ (s : State), Quiet s → Room s 8 → ∀ p, s.plan = some p →
    let i := s.report.producer
    let posted (r : Record) (t : State) : Prop :=
      t.report.posted = [field 0 3 r.kind + field 4 6 r.qualifier + field 10 6 r.wafer
        + field 16 16 s.report.seqNo.toNat, r.w1, r.w2, r.w3] ∧
      t.report.seqNo = s.report.seqNo + 1 ∧ t.report.producer = (i + 1) % p.ringLength ∧
      t.report.unread = s.report.unread + 1 ∧
      t.report.coalesce = (if s.report.unread = 0 then .running s.now else s.report.coalesce) ∧
      t.report.events = (if s.report.unread + 1 = p.ringLength - 1 then s.report.events ||| 256 else s.report.events)
    let ringWords := [ringRecordWord i 0, ringRecordWord i 1, ringRecordWord i 2, ringRecordWord i 3, producerWord, unreadWord]
    (p.ringLength - 1 ≤ s.report.unread → exec .posting s = .next s) ∧
    (s.report.unread < p.ringLength - 1 → s.seq.staging = none →
      let posts (r : Record) : Prop := ∃ t, exec .posting s = .next t ∧ posted r t ∧
        (s.report.faultSlot = none → t.report.faultSlot = none) ∧
        (t.report.handSlot = if s.report.faultSlot = none then none else s.report.handSlot) ∧
        (t.report.seqSlot = if s.report.faultSlot = none ∧ s.report.handSlot = none then none
          else s.report.seqSlot) ∧
        Publishes s t ringWords ∧
        t = { s with report := t.report, lot := { s.lot with deferred := t.lot.deferred }, queue := t.queue }
      (∀ r, s.report.faultSlot = some r → posts r) ∧
      (∀ r, s.report.handSlot = some r → s.report.faultSlot = none → posts r) ∧
      (∀ r, s.report.seqSlot = some r → s.report.faultSlot = none → s.report.handSlot = none → posts r) ∧
      (∀ r, s.report.lotSlot = some r → s.report.faultSlot = none → s.report.handSlot = none →
        s.report.seqSlot = none → posts r)) ∧
    (s.report.unread < p.ringLength - 1 → s.report.faultSlot = none → s.report.handSlot = none →
      ∀ r, s.report.seqSlot = some r → ∀ r2, s.seq.staging = some (.revisit r2) → PauseAlone s.seq →
      s.seq.st = .paused → s.seq.reason = .ring →
      ∃ t, exec .posting s = .next t ∧ posted r t ∧ t.report.seqSlot = some r2 ∧ HostPaused t.seq ∧ t.seq.staging = none ∧
        t = { s with report := t.report, seq := t.seq, queue := t.queue })

/-- R201: a consumer write is adopted if the new index is below the ring length and no more than the unread records are
consumed, and is otherwise reported CONSUMER_BAD. R203, R204: a write of the event mask, the coalescing timer, whose clock
is at the expiry (log 16), and when IRQ is asserted. -/
def Obligations.ConsumptionAndInterrupt : Prop :=
  (∀ (s : State) (be : BitVec 4) (v : Word) (more : Bool), ∀ a, Takes s consumerWord a → be ≠ 0 →
    ∀ p, s.plan = some p →
    let merged := mergeLanes be s.report.consumer v
    let new := getField merged 0 16
    let dist := (((new : Int) - (getField s.report.consumer 0 16 : Int)) % (p.ringLength : Int)).toNat
    (new < p.ringLength ∧ dist ≤ s.report.unread → ∃ t, exec (.consumerWrite be v more) s = .next t ∧
      t = { s.hostDone a be v more with
        queue := t.queue
        report := { s.report with
          consumer := merged, unread := s.report.unread - dist
          coalesce := if s.report.unread = dist then .stopped else .running s.now } } ∧
      Publishes s t [unreadWord] ∧ StoresOnly s t a) ∧
    (¬(new < p.ringLength ∧ dist ≤ s.report.unread) → ∃ t, exec (.consumerWrite be v more) s = .next t ∧
      t = { s.hostDone a be v more with report := { s.report with events := s.report.events ||| 16 } } ∧
      StoresOnly s t a)) ∧
  (∀ (s : State) (be : BitVec 4) (v : Word) (more : Bool), ∀ a, Takes s eventMaskWord a → be ≠ 0 →
    ∃ t, exec (.eventMaskWrite be v more) s = .next t ∧
      t = { s.hostDone a be v more with report := { s.report with mask := mergeLanes be s.report.mask v } } ∧
      StoresOnly s t a) ∧
  (∀ (s : State), Quiet s → ∀ p, s.plan = some p → ∀ t0, s.report.coalesce = .running t0 →
    ∃ t, exec .coalesceTimerExpiry s = .next t ∧
      t = { s with
        now := max s.now (t0 + 1000 * p.coalesceTime), report := { s.report with coalesce := .expired } } ∧
      (0 < s.report.unread → t.irq = true)) ∧
  (∀ (s : State), s.inReset = false → ∀ p, s.plan = some p →
    (s.irq = true ↔ p.coalesceCount ≤ s.report.unread ∨ (0 < s.report.unread ∧ s.report.coalesce = .expired) ∨
      ∃ i, i < 9 ∧ s.report.events.getLsbD i = true ∧ s.report.mask.getLsbD i = true))

/-- R206: the value of every H word, against the layouts of sections 12.2 to 12.7 (the plan status with a standing that can
be read; a current attempt beyond 3 is log 20; ENABLED 0 and DISABLED 1, and a node's valid 0 and invalid 1, are the
reading of log 13). The records of the ring are in the statement of a posting. -/
def Obligations.WordsAreLaidOut : Prop :=
  ∀ s : State,
    let result (c : Code) : Nat := codeIn [.noResult, .ok, .busy, .state, .range, .stale, .incomplete, .rejected, .interlock,
      .unknown, .badWafer, .waferBusy, .badDest, .notHome, .destUncertain, .destReserved, .destOccupied, .stageBusy] c
    let reason (r : PauseReason) : Nat := codeIn [.noReason, .host, .trip, .ring, .fault] r
    let state (q : SeqState) : Nat := codeIn [.idle, .ordering, .ready, .running, .paused, .halted, .probing, .done] q
    let source (v : Source) : Nat := codeIn [.interpolated, .partly, .fallback] v
    let clamped (p : Prediction) := p.clamped.toNat
    let u := s.planU
    let m := s.motion
    let x := s.xform
    let f := s.focus
    let l := s.defects
    let q := s.seq
    let lot := s.lot
    (u.standing ≠ .starting → LaidOut (hWord s ⟨.plan, 0x90⟩)
      [(0, 2, codeIn [.starting, .adopted, .bare, .committing] u.standing), (4, 4, result u.commitResult),
       (8, 4, codeIn [.accepted, .signature, .align, .overlap, .capacity, .limits, .pitch, .workOpen] u.validation),
       (16, 6, u.clampCount), (24, 8, u.firstClamp)]) ∧
    LaidOut (hWord s ⟨.plan, 0x94⟩) [(0, 8, u.offending), (16, 16, u.adoptions.toNat)] ∧
    hWord s ⟨.plan, 0x98⟩ = BitVec.ofNat 32 ((s.plan.map (·.capacity)).getD 0) ∧
    hWord s ⟨.plan, 0x9C⟩ = BitVec.ofNat 32 ((s.plan.map (·.ringLength)).getD 0) ∧
    ((List.range 9).map fun k => hWord s ⟨.plan, 0xA0 + 4 * k⟩) = [50, 55, 4, 4096, 17, 0x00100010, 16, 16, 1024] ∧
    (∀ w, w < 50 →
      LaidOut (hWord s ⟨.handling, 16 * w + 8⟩)
        [(0, 6, match (s.wafer w).place with | .pos p => p | .inTransit => 62 | .unknown => 63),
         (8, 3, codeIn [.unmapped, .new, .loaded, .aligned, .reviewing, .reviewed, .partly] (s.wafer w).progress),
         (11, 1, (s.wafer w).suspect.toNat), (12, 1, (s.wafer w).member.toNat), (16, 13, (s.wafer w).visited)] ∧
      LaidOut (hWord s ⟨.handling, 16 * w + 12⟩) [(0, 16, (s.wafer w).lotTag.toNat)]) ∧
    (∀ p, p < 55 → LaidOut (hWord s ⟨.handling, 0x320 + 4 * p⟩)
      [(0, 6, (s.posn p).occupant.getD 63), (8, 1, (s.posn p).uncertain.toNat), (12, 2, (s.posn p).claim.getD 3),
       (15, 1, (s.posn p).claim.isSome.toNat), (16, 2, (s.posn p).reservation.getD 3),
       (19, 1, (s.posn p).reservation.isSome.toNat)]) ∧
    (∀ k, k < 4 → LaidOut (hWord s ⟨.handling, 0x40C + 16 * k⟩)
      [(0, 3, codeIn [.free, .queued, .sent, .done, .failed] (s.slot k).st), (3, 1, (s.slot k).acked.toNat),
       (4, 4, codeIn [.noReason, .cancelled, .badWafer, .destUncertain, .destBlocked, .robotRefused, .ackTimeout, .robotFault,
         .doneTimeout] (s.slot k).reason),
       (8, 5, result (s.slot k).goResult), (16, 8, (s.slot k).tag.toNat), (24, 8, (s.slot k).robotCode.toNat)]) ∧
    LaidOut (hWord s ⟨.handling, 0x44C⟩)
      [(0, 1, s.hand.held.toNat), (4, 4, result s.hand.result), (8, 6, s.hand.stage.getD 63)] ∧
    LaidOut (hWord s ⟨.stage, 0x01C⟩)
      [(0, 1, codeIn [true, false] m.enable), (1, 1, m.interlock.toNat), (2, 1, m.awaiting.toNat),
       (4, 3, codeIn [.idle, .moving, .settling, .settled, .timedOut, .stopped, .faulted] m.move),
       (8, 2, codeIn [.noCause, .interlock, .disable, .request] m.stopCause), (16, 4, result m.result),
       (24, 8, m.frameSeq.toNat)] ∧
    LaidOut (hWord s ⟨.stage, 0x020⟩)
      [(0, 12, (m.shadow.map (·.index)).getD 4095), (15, 1, m.shadow.isSome.toNat)] ∧
    hWord s ⟨.stage, 0x024⟩ = m.trigCount ∧
    LaidOut (hWord s ⟨.stage, 0x06C⟩)
      [(0, 1, x.inForce.isSome.toNat), (4, 4, match x.loadPos with | .at k => k | .broken => 15),
       (8, 1, x.pendingCommit.isSome.toNat), (12, 4, result x.commitResult), (20, 4, result x.viewResult)] ∧
    LaidOut (hWord s ⟨.stage, 0x070⟩) [(0, 16, x.seqNo.toNat), (16, 8, x.devElement)] ∧
    (x.devMagnitude < 2 ^ 64 →
      (hWord s ⟨.stage, 0x074⟩).toNat + 2 ^ 32 * (hWord s ⟨.stage, 0x078⟩).toNat = x.devMagnitude) ∧
    [hWord s ⟨.stage, 0x080⟩, hWord s ⟨.stage, 0x084⟩, hWord s ⟨.stage, 0x088⟩, hWord s ⟨.stage, 0x08C⟩]
      = [x.results.waferX, x.results.waferY, x.results.xCount, x.results.yCount] ∧
    LaidOut (hWord s ⟨.stage, 0x090⟩)
      [(0, 16, x.results.number.toNat), (16, 14, x.results.seqNo.toNat), (30, 1, x.results.satX.toNat),
       (31, 1, x.results.satY.toNat)] ∧
    (∀ n, n < 289 → hWord s ⟨.focus, 8 * n⟩ = (s.node n).height ∧
      LaidOut (hWord s ⟨.focus, 8 * n + 4⟩) [(0, 1, codeIn [true, false] (s.node n).valid), (8, 8, (s.node n).count)]) ∧
    LaidOut (hWord s ⟨.focus, 0x91C⟩) [(0, 4, result f.ctlResult), (8, 4, result f.queryResult)] ∧
    [hWord s ⟨.focus, 0x920⟩, hWord s ⟨.focus, 0x924⟩, hWord s ⟨.focus, 0x930⟩, hWord s ⟨.focus, 0x940⟩]
      = [f.base, f.lastZ, f.setpoint.getD 0, f.queryZ] ∧
    LaidOut (hWord s ⟨.focus, 0x928⟩)
      [(0, 3, codeIn [.noOutcome, .accepted, .noCapture, .notConverged, .atLimit, .focusTimeout, .aborted] f.last.outcome),
       (3, 2, codeIn [.noDetail, .settle, .sample] f.last.detail), (8, 2, source f.last.source),
       (10, 1, f.last.clamped.toNat), (12, 4, f.last.samples), (16, 16, f.last.err.toNat)] ∧
    LaidOut (hWord s ⟨.focus, 0x92C⟩)
      [(0, 3, codeIn [none, some .predicting, some .awaitSettle, some .awaitSample, some .reading] (f.attempt.map (·.loop))),
       (4, 2, codeIn [none, some .revisit, some .probe] (f.attempt.map (·.kind))),
       (8, 4, (f.attempt.map (·.sample)).getD 0), (12, 1, f.setpoint.isSome.toNat)] ∧
    LaidOut (hWord s ⟨.focus, 0x944⟩)
      [(0, 2, source f.queryPred.source), (2, 1, clamped f.queryPred), (3, 4, f.queryPred.cell.i), (7, 4, f.queryPred.cell.j),
       (11, 9, f.queryPred.cell.fx), (20, 9, f.queryPred.cell.fy)] ∧
    LaidOut (hWord s ⟨.focus, 0x948⟩) [(0, 16, f.querySeq.toNat), (16, 9, f.queryNearest)] ∧
    LaidOut (hWord s ⟨.defect, 0x004⟩)
      [(0, 2, codeIn [.empty, .building, .sealed] l.list), (4, 13, l.n), (20, 4, result l.sealResult)] ∧
    LaidOut (hWord s ⟨.defect, 0x00C⟩) [(0, 4, result q.result)] ∧
    LaidOut (hWord s ⟨.defect, 0x010⟩)
      [(0, 4, state q.st),
       (4, 4, codeIn [.noPhase, .select, .target, .move, .settle, .focus, .expose, .resolve] q.phase),
       (8, 3, reason q.reason), (12, 1, q.fPause.toNat), (13, 1, q.fStop.toNat), (14, 1, q.fTrip.toNat),
       (15, 1, q.fHalt.toNat), (16, 1, q.fFault.toNat), (20, 4, (q.prior.map fun p => state p.1).getD 15),
       (24, 3, (q.prior.map fun p => reason p.2).getD 0)] ∧
    (q.current = none → LaidOut (hWord s ⟨.defect, 0x014⟩) [(0, 12, 4095)]) ∧
    (∀ d, q.current = some d → (s.defect d).attempts < 3 →
      LaidOut (hWord s ⟨.defect, 0x014⟩) [(0, 12, d), (15, 1, 1), (16, 2, (s.defect d).attempts + 1)]) ∧
    LaidOut (hWord s ⟨.defect, 0x01C⟩) [(0, 4, result q.vResult), (4, 2, q.vCode.toNat), (16, 12, q.vIndex.toNat)] ∧
    LaidOut (hWord s ⟨.defect, 0x028⟩)
      [(0, 4, codeIn [.noOutcome, .inProgress, .accepted, .coordinate, .travel, .moveTimeout, .noCapture, .notConverged,
         .atLimit, .focusTimeout, .positionSuspect, .interlock, .presence, .abandoned, .noTransform] q.probeOutcome),
       (4, 2, source q.probeResult.source), (6, 1, q.probeResult.clamped.toNat), (8, 4, q.probeResult.samples),
       (16, 16, q.probeCount.toNat)] ∧
    (hWord s ⟨.defect, 0x02C⟩) = ofSigned q.probeResult.acceptedZ ∧
    (∀ k, k < 4 → LaidOut (hWord s ⟨.defect, 0x088 + 4 * k⟩)
      [(0, 16, s.stateCount (2 * k + 1)), (16, 16, if k = 3 then 0 else s.stateCount (2 * k + 2))]) ∧
    (∀ k, k < 8 → LaidOut (hWord s ⟨.defect, 0x098 + 4 * k⟩)
      [(0, 16, s.imagedCount (2 * k)), (16, 16, s.imagedCount (2 * k + 1))]) ∧
    (∀ d, d < 4096 →
      LaidOut (hWord s ⟨.defect, 0x1014 + 32 * d⟩)
        [(0, 3, codeIn [.unlisted, .pending, .active, .imaged, .failed, .skipped, .quota, .unreachable] (s.defect d).st),
         (4, 2, (s.defect d).attempts), (8, 4, (s.defect d).reviewClass.toNat),
         (16, 4, codeIn [.noOutcome, .imaged, .rejected, .moveTimeout, .noCapture, .notConverged, .atLimit, .focusTimeout,
           .verdictTimeout, .positionSuspect, .reimage, .coordinate, .travel, .quota] (s.defect d).outcome)] ∧
      hWord s ⟨.defect, 0x1018 + 32 * d⟩ = (s.defect d).acceptedZ ∧
      LaidOut (hWord s ⟨.defect, 0x101C + 32 * d⟩) [(0, 12, (s.defect d).rank), (16, 4, result (s.defect d).disposition)]) ∧
    LaidOut (hWord s ⟨.lot, 0x010⟩) [(0, 16, lot.tag.toNat), (16, 16, lot.joined)] ∧
    LaidOut (hWord s ⟨.lot, 0x014⟩)
      [(0, 2, codeIn [.noLot, .opened, .closed] lot.st), (4, 4, result lot.result), (8, 1, lot.tripped.toNat),
       (12, 4, lot.firstTrip), (16, 2, codeIn [.noClose, .close, .force] lot.closeKind), (18, 1, lot.short.toNat),
       (24, 6, lot.expected)] ∧
    (∀ i, i < 16 → hWord s ⟨.lot, 0x100 + 16 * i⟩ = BitVec.ofNat 32 (s.attr i).value ∧
      hWord s ⟨.lot, 0x104 + 16 * i⟩ = BitVec.ofNat 32 (s.attr i).wafer ∧
      LaidOut (hWord s ⟨.lot, 0x10C + 16 * i⟩) [(0, 1, (s.attr i).tripped.toNat), (1, 1, (s.attr i).first.toNat)] ∧
      hWord s ⟨.lot, 0x200 + 4 * i⟩ = BitVec.ofNat 32 (lot.hist.get 0 i)) ∧
    LaidOut (hWord s ⟨.ring, 0x00⟩) [(0, 16, s.report.producer)] ∧
    LaidOut (hWord s ⟨.ring, 0x08⟩) [(0, 16, s.report.unread)] ∧
    LaidOut (hWord s ⟨.ring, 0x0C⟩) [(0, 16, s.report.stalls)]

/-! ### The host's wait -/

/-- R11, R21, R22: a host word that is presented while start-up or a request in progress holds the host port waits: nothing
happens to it, and it contends for the memory port from the moment it can be taken, if it needs the port. A write needs it
unless it has no byte enable (R3) or names a record of the ring (R9); a read of an S word does not (R13), one of an H word
does while no entry is queued for it (R10); an alignment commit waits for the load-cycle steps first (R108). The wait is the
model's `hostWaits` (log 6, log 28). Stated between events, for lawful waiting steps: a request in progress is one whose last
step waits. -/
def Obligations.HeldWordsWaitForTheirTurn : Prop :=
  ∀ (s : State), Inv s = true → s.inReset = false → s.made = [] → s.sequel = [] → s.named = [] → stepsLawful s = true →
    portOpen s = false →
    let held (c : Instr) (w : Option HostWait) : Prop := exec c s = .next { s with hReady := false, hostWaits := w }
    (∀ (addr : Addr) (be : BitVec 4) (d : Word) (more : Bool) (w : WordRef),
      decodeAddr s.planBase s.map (wordAligned addr.toNat) = some w →
      (be = 0 ∨ (isRingRecord w = true ∧ wordClass s.map w = .h) → held (.hostPWrite addr be d more) none) ∧
      (be ≠ 0 → ¬(isRingRecord w = true ∧ wordClass s.map w = .h) → (w ≠ alignmentCommitWord ∨ be ≠ 15) →
        held (.hostPWrite addr be d more) (some .memory)) ∧
      (wordClass s.map w = .s → held (.postedResultRead addr more) none) ∧
      (wordClass s.map w = .h → held (.postedResultRead addr more) (some (.hRead (wordAligned addr.toNat)))) ∧
      (wordClass s.map w ≠ .s → wordClass s.map w ≠ .h → held (.postedResultRead addr more) (some .memory))) ∧
    (∀ (more : Bool) (a : Nat), hostAddr s alignmentCommitWord = some a →
      held (.alignmentCommit more) (some .loadCycle)) ∧
    (∀ (addr : Addr) (words : List (BitVec 4 × Word)) (more : Bool),
      held (.forwardedAccess addr false words more) (some .memory) ∧
      ((∃ e ∈ words, e.1 ≠ 0) → held (.forwardedAccess addr true words more) (some .memory)) ∧
      ((∀ e ∈ words, e.1 = 0) → held (.forwardedAccess addr true words more) none))
end

