-- ==== Sys2Proof/Laws/State.lean ====
section
/-! SUPPORT. What each update of the state does to each field: one lemma per field per update, true by unfolding. -/

namespace Sys2Proof.Machine

@[simp] theorem State.onPlan_pending (s : State) (f : PlanUnit → PlanUnit) : (s.onPlan f).pending = s.pending := rfl
@[simp] theorem State.onPlan_now (s : State) (f : PlanUnit → PlanUnit) : (s.onPlan f).now = s.now := rfl
@[simp] theorem State.onPlan_mem (s : State) (f : PlanUnit → PlanUnit) : (s.onPlan f).mem = s.mem := rfl
@[simp] theorem State.onPlan_inReset (s : State) (f : PlanUnit → PlanUnit) : (s.onPlan f).inReset = s.inReset := rfl
@[simp] theorem State.onPlan_planSel (s : State) (f : PlanUnit → PlanUnit) : (s.onPlan f).planSel = s.planSel := rfl
@[simp] theorem State.onPlan_hReady (s : State) (f : PlanUnit → PlanUnit) : (s.onPlan f).hReady = s.hReady := rfl
@[simp] theorem State.onPlan_hData (s : State) (f : PlanUnit → PlanUnit) : (s.onPlan f).hData = s.hData := rfl
@[simp] theorem State.onPlan_mAccess (s : State) (f : PlanUnit → PlanUnit) : (s.onPlan f).mAccess = s.mAccess := rfl
@[simp] theorem State.onPlan_hostBusy (s : State) (f : PlanUnit → PlanUnit) : (s.onPlan f).hostBusy = s.hostBusy := rfl
@[simp] theorem State.onPlan_hostMore (s : State) (f : PlanUnit → PlanUnit) : (s.onPlan f).hostMore = s.hostMore := rfl
@[simp] theorem State.onPlan_hostWaits (s : State) (f : PlanUnit → PlanUnit) : (s.onPlan f).hostWaits = s.hostWaits := rfl
@[simp] theorem State.onPlan_map (s : State) (f : PlanUnit → PlanUnit) : (s.onPlan f).map = s.map := rfl
@[simp] theorem State.onPlan_plan (s : State) (f : PlanUnit → PlanUnit) : (s.onPlan f).plan = s.plan := rfl
@[simp] theorem State.onPlan_queue (s : State) (f : PlanUnit → PlanUnit) : (s.onPlan f).queue = s.queue := rfl
@[simp] theorem State.onPlan_waiting (s : State) (f : PlanUnit → PlanUnit) : (s.onPlan f).waiting = s.waiting := rfl
@[simp] theorem State.onPlan_made (s : State) (f : PlanUnit → PlanUnit) : (s.onPlan f).made = s.made := rfl
@[simp] theorem State.onPlan_sequel (s : State) (f : PlanUnit → PlanUnit) : (s.onPlan f).sequel = s.sequel := rfl
@[simp] theorem State.onPlan_named (s : State) (f : PlanUnit → PlanUnit) : (s.onPlan f).named = s.named := rfl
@[simp] theorem State.onPlan_openCount (s : State) (f : PlanUnit → PlanUnit) : (s.onPlan f).openCount = s.openCount := rfl
@[simp] theorem State.onPlan_planU (s : State) (f : PlanUnit → PlanUnit) : (s.onPlan f).planU = f s.planU := rfl
@[simp] theorem State.onPlan_hand (s : State) (f : PlanUnit → PlanUnit) : (s.onPlan f).hand = s.hand := rfl
@[simp] theorem State.onPlan_motion (s : State) (f : PlanUnit → PlanUnit) : (s.onPlan f).motion = s.motion := rfl
@[simp] theorem State.onPlan_xform (s : State) (f : PlanUnit → PlanUnit) : (s.onPlan f).xform = s.xform := rfl
@[simp] theorem State.onPlan_focus (s : State) (f : PlanUnit → PlanUnit) : (s.onPlan f).focus = s.focus := rfl
@[simp] theorem State.onPlan_defects (s : State) (f : PlanUnit → PlanUnit) : (s.onPlan f).defects = s.defects := rfl
@[simp] theorem State.onPlan_seq (s : State) (f : PlanUnit → PlanUnit) : (s.onPlan f).seq = s.seq := rfl
@[simp] theorem State.onPlan_lot (s : State) (f : PlanUnit → PlanUnit) : (s.onPlan f).lot = s.lot := rfl
@[simp] theorem State.onPlan_report (s : State) (f : PlanUnit → PlanUnit) : (s.onPlan f).report = s.report := rfl

@[simp] theorem State.onHand_pending (s : State) (f : Handling → Handling) : (s.onHand f).pending = s.pending := rfl
@[simp] theorem State.onHand_now (s : State) (f : Handling → Handling) : (s.onHand f).now = s.now := rfl
@[simp] theorem State.onHand_mem (s : State) (f : Handling → Handling) : (s.onHand f).mem = s.mem := rfl
@[simp] theorem State.onHand_inReset (s : State) (f : Handling → Handling) : (s.onHand f).inReset = s.inReset := rfl
@[simp] theorem State.onHand_planSel (s : State) (f : Handling → Handling) : (s.onHand f).planSel = s.planSel := rfl
@[simp] theorem State.onHand_hReady (s : State) (f : Handling → Handling) : (s.onHand f).hReady = s.hReady := rfl
@[simp] theorem State.onHand_hData (s : State) (f : Handling → Handling) : (s.onHand f).hData = s.hData := rfl
@[simp] theorem State.onHand_mAccess (s : State) (f : Handling → Handling) : (s.onHand f).mAccess = s.mAccess := rfl
@[simp] theorem State.onHand_hostBusy (s : State) (f : Handling → Handling) : (s.onHand f).hostBusy = s.hostBusy := rfl
@[simp] theorem State.onHand_hostMore (s : State) (f : Handling → Handling) : (s.onHand f).hostMore = s.hostMore := rfl
@[simp] theorem State.onHand_hostWaits (s : State) (f : Handling → Handling) : (s.onHand f).hostWaits = s.hostWaits := rfl
@[simp] theorem State.onHand_map (s : State) (f : Handling → Handling) : (s.onHand f).map = s.map := rfl
@[simp] theorem State.onHand_plan (s : State) (f : Handling → Handling) : (s.onHand f).plan = s.plan := rfl
@[simp] theorem State.onHand_queue (s : State) (f : Handling → Handling) : (s.onHand f).queue = s.queue := rfl
@[simp] theorem State.onHand_waiting (s : State) (f : Handling → Handling) : (s.onHand f).waiting = s.waiting := rfl
@[simp] theorem State.onHand_made (s : State) (f : Handling → Handling) : (s.onHand f).made = s.made := rfl
@[simp] theorem State.onHand_sequel (s : State) (f : Handling → Handling) : (s.onHand f).sequel = s.sequel := rfl
@[simp] theorem State.onHand_named (s : State) (f : Handling → Handling) : (s.onHand f).named = s.named := rfl
@[simp] theorem State.onHand_openCount (s : State) (f : Handling → Handling) : (s.onHand f).openCount = s.openCount := rfl
@[simp] theorem State.onHand_planU (s : State) (f : Handling → Handling) : (s.onHand f).planU = s.planU := rfl
@[simp] theorem State.onHand_hand (s : State) (f : Handling → Handling) : (s.onHand f).hand = f s.hand := rfl
@[simp] theorem State.onHand_motion (s : State) (f : Handling → Handling) : (s.onHand f).motion = s.motion := rfl
@[simp] theorem State.onHand_xform (s : State) (f : Handling → Handling) : (s.onHand f).xform = s.xform := rfl
@[simp] theorem State.onHand_focus (s : State) (f : Handling → Handling) : (s.onHand f).focus = s.focus := rfl
@[simp] theorem State.onHand_defects (s : State) (f : Handling → Handling) : (s.onHand f).defects = s.defects := rfl
@[simp] theorem State.onHand_seq (s : State) (f : Handling → Handling) : (s.onHand f).seq = s.seq := rfl
@[simp] theorem State.onHand_lot (s : State) (f : Handling → Handling) : (s.onHand f).lot = s.lot := rfl
@[simp] theorem State.onHand_report (s : State) (f : Handling → Handling) : (s.onHand f).report = s.report := rfl

@[simp] theorem State.onMotion_pending (s : State) (f : Motion → Motion) : (s.onMotion f).pending = s.pending := rfl
@[simp] theorem State.onMotion_now (s : State) (f : Motion → Motion) : (s.onMotion f).now = s.now := rfl
@[simp] theorem State.onMotion_mem (s : State) (f : Motion → Motion) : (s.onMotion f).mem = s.mem := rfl
@[simp] theorem State.onMotion_inReset (s : State) (f : Motion → Motion) : (s.onMotion f).inReset = s.inReset := rfl
@[simp] theorem State.onMotion_planSel (s : State) (f : Motion → Motion) : (s.onMotion f).planSel = s.planSel := rfl
@[simp] theorem State.onMotion_hReady (s : State) (f : Motion → Motion) : (s.onMotion f).hReady = s.hReady := rfl
@[simp] theorem State.onMotion_hData (s : State) (f : Motion → Motion) : (s.onMotion f).hData = s.hData := rfl
@[simp] theorem State.onMotion_mAccess (s : State) (f : Motion → Motion) : (s.onMotion f).mAccess = s.mAccess := rfl
@[simp] theorem State.onMotion_hostBusy (s : State) (f : Motion → Motion) : (s.onMotion f).hostBusy = s.hostBusy := rfl
@[simp] theorem State.onMotion_hostMore (s : State) (f : Motion → Motion) : (s.onMotion f).hostMore = s.hostMore := rfl
@[simp] theorem State.onMotion_hostWaits (s : State) (f : Motion → Motion) : (s.onMotion f).hostWaits = s.hostWaits := rfl
@[simp] theorem State.onMotion_map (s : State) (f : Motion → Motion) : (s.onMotion f).map = s.map := rfl
@[simp] theorem State.onMotion_plan (s : State) (f : Motion → Motion) : (s.onMotion f).plan = s.plan := rfl
@[simp] theorem State.onMotion_queue (s : State) (f : Motion → Motion) : (s.onMotion f).queue = s.queue := rfl
@[simp] theorem State.onMotion_waiting (s : State) (f : Motion → Motion) : (s.onMotion f).waiting = s.waiting := rfl
@[simp] theorem State.onMotion_made (s : State) (f : Motion → Motion) : (s.onMotion f).made = s.made := rfl
@[simp] theorem State.onMotion_sequel (s : State) (f : Motion → Motion) : (s.onMotion f).sequel = s.sequel := rfl
@[simp] theorem State.onMotion_named (s : State) (f : Motion → Motion) : (s.onMotion f).named = s.named := rfl
@[simp] theorem State.onMotion_openCount (s : State) (f : Motion → Motion) : (s.onMotion f).openCount = s.openCount := rfl
@[simp] theorem State.onMotion_planU (s : State) (f : Motion → Motion) : (s.onMotion f).planU = s.planU := rfl
@[simp] theorem State.onMotion_hand (s : State) (f : Motion → Motion) : (s.onMotion f).hand = s.hand := rfl
@[simp] theorem State.onMotion_motion (s : State) (f : Motion → Motion) : (s.onMotion f).motion = f s.motion := rfl
@[simp] theorem State.onMotion_xform (s : State) (f : Motion → Motion) : (s.onMotion f).xform = s.xform := rfl
@[simp] theorem State.onMotion_focus (s : State) (f : Motion → Motion) : (s.onMotion f).focus = s.focus := rfl
@[simp] theorem State.onMotion_defects (s : State) (f : Motion → Motion) : (s.onMotion f).defects = s.defects := rfl
@[simp] theorem State.onMotion_seq (s : State) (f : Motion → Motion) : (s.onMotion f).seq = s.seq := rfl
@[simp] theorem State.onMotion_lot (s : State) (f : Motion → Motion) : (s.onMotion f).lot = s.lot := rfl
@[simp] theorem State.onMotion_report (s : State) (f : Motion → Motion) : (s.onMotion f).report = s.report := rfl

@[simp] theorem State.onXform_pending (s : State) (f : Transform → Transform) : (s.onXform f).pending = s.pending := rfl
@[simp] theorem State.onXform_now (s : State) (f : Transform → Transform) : (s.onXform f).now = s.now := rfl
@[simp] theorem State.onXform_mem (s : State) (f : Transform → Transform) : (s.onXform f).mem = s.mem := rfl
@[simp] theorem State.onXform_inReset (s : State) (f : Transform → Transform) : (s.onXform f).inReset = s.inReset := rfl
@[simp] theorem State.onXform_planSel (s : State) (f : Transform → Transform) : (s.onXform f).planSel = s.planSel := rfl
@[simp] theorem State.onXform_hReady (s : State) (f : Transform → Transform) : (s.onXform f).hReady = s.hReady := rfl
@[simp] theorem State.onXform_hData (s : State) (f : Transform → Transform) : (s.onXform f).hData = s.hData := rfl
@[simp] theorem State.onXform_mAccess (s : State) (f : Transform → Transform) : (s.onXform f).mAccess = s.mAccess := rfl
@[simp] theorem State.onXform_hostBusy (s : State) (f : Transform → Transform) : (s.onXform f).hostBusy = s.hostBusy := rfl
@[simp] theorem State.onXform_hostMore (s : State) (f : Transform → Transform) : (s.onXform f).hostMore = s.hostMore := rfl
@[simp] theorem State.onXform_hostWaits (s : State) (f : Transform → Transform) : (s.onXform f).hostWaits = s.hostWaits := rfl
@[simp] theorem State.onXform_map (s : State) (f : Transform → Transform) : (s.onXform f).map = s.map := rfl
@[simp] theorem State.onXform_plan (s : State) (f : Transform → Transform) : (s.onXform f).plan = s.plan := rfl
@[simp] theorem State.onXform_queue (s : State) (f : Transform → Transform) : (s.onXform f).queue = s.queue := rfl
@[simp] theorem State.onXform_waiting (s : State) (f : Transform → Transform) : (s.onXform f).waiting = s.waiting := rfl
@[simp] theorem State.onXform_made (s : State) (f : Transform → Transform) : (s.onXform f).made = s.made := rfl
@[simp] theorem State.onXform_sequel (s : State) (f : Transform → Transform) : (s.onXform f).sequel = s.sequel := rfl
@[simp] theorem State.onXform_named (s : State) (f : Transform → Transform) : (s.onXform f).named = s.named := rfl
@[simp] theorem State.onXform_openCount (s : State) (f : Transform → Transform) : (s.onXform f).openCount = s.openCount := rfl
@[simp] theorem State.onXform_planU (s : State) (f : Transform → Transform) : (s.onXform f).planU = s.planU := rfl
@[simp] theorem State.onXform_hand (s : State) (f : Transform → Transform) : (s.onXform f).hand = s.hand := rfl
@[simp] theorem State.onXform_motion (s : State) (f : Transform → Transform) : (s.onXform f).motion = s.motion := rfl
@[simp] theorem State.onXform_xform (s : State) (f : Transform → Transform) : (s.onXform f).xform = f s.xform := rfl
@[simp] theorem State.onXform_focus (s : State) (f : Transform → Transform) : (s.onXform f).focus = s.focus := rfl
@[simp] theorem State.onXform_defects (s : State) (f : Transform → Transform) : (s.onXform f).defects = s.defects := rfl
@[simp] theorem State.onXform_seq (s : State) (f : Transform → Transform) : (s.onXform f).seq = s.seq := rfl
@[simp] theorem State.onXform_lot (s : State) (f : Transform → Transform) : (s.onXform f).lot = s.lot := rfl
@[simp] theorem State.onXform_report (s : State) (f : Transform → Transform) : (s.onXform f).report = s.report := rfl

@[simp] theorem State.onFocus_pending (s : State) (f : Focus → Focus) : (s.onFocus f).pending = s.pending := rfl
@[simp] theorem State.onFocus_now (s : State) (f : Focus → Focus) : (s.onFocus f).now = s.now := rfl
@[simp] theorem State.onFocus_mem (s : State) (f : Focus → Focus) : (s.onFocus f).mem = s.mem := rfl
@[simp] theorem State.onFocus_inReset (s : State) (f : Focus → Focus) : (s.onFocus f).inReset = s.inReset := rfl
@[simp] theorem State.onFocus_planSel (s : State) (f : Focus → Focus) : (s.onFocus f).planSel = s.planSel := rfl
@[simp] theorem State.onFocus_hReady (s : State) (f : Focus → Focus) : (s.onFocus f).hReady = s.hReady := rfl
@[simp] theorem State.onFocus_hData (s : State) (f : Focus → Focus) : (s.onFocus f).hData = s.hData := rfl
@[simp] theorem State.onFocus_mAccess (s : State) (f : Focus → Focus) : (s.onFocus f).mAccess = s.mAccess := rfl
@[simp] theorem State.onFocus_hostBusy (s : State) (f : Focus → Focus) : (s.onFocus f).hostBusy = s.hostBusy := rfl
@[simp] theorem State.onFocus_hostMore (s : State) (f : Focus → Focus) : (s.onFocus f).hostMore = s.hostMore := rfl
@[simp] theorem State.onFocus_hostWaits (s : State) (f : Focus → Focus) : (s.onFocus f).hostWaits = s.hostWaits := rfl
@[simp] theorem State.onFocus_map (s : State) (f : Focus → Focus) : (s.onFocus f).map = s.map := rfl
@[simp] theorem State.onFocus_plan (s : State) (f : Focus → Focus) : (s.onFocus f).plan = s.plan := rfl
@[simp] theorem State.onFocus_queue (s : State) (f : Focus → Focus) : (s.onFocus f).queue = s.queue := rfl
@[simp] theorem State.onFocus_waiting (s : State) (f : Focus → Focus) : (s.onFocus f).waiting = s.waiting := rfl
@[simp] theorem State.onFocus_made (s : State) (f : Focus → Focus) : (s.onFocus f).made = s.made := rfl
@[simp] theorem State.onFocus_sequel (s : State) (f : Focus → Focus) : (s.onFocus f).sequel = s.sequel := rfl
@[simp] theorem State.onFocus_named (s : State) (f : Focus → Focus) : (s.onFocus f).named = s.named := rfl
@[simp] theorem State.onFocus_openCount (s : State) (f : Focus → Focus) : (s.onFocus f).openCount = s.openCount := rfl
@[simp] theorem State.onFocus_planU (s : State) (f : Focus → Focus) : (s.onFocus f).planU = s.planU := rfl
@[simp] theorem State.onFocus_hand (s : State) (f : Focus → Focus) : (s.onFocus f).hand = s.hand := rfl
@[simp] theorem State.onFocus_motion (s : State) (f : Focus → Focus) : (s.onFocus f).motion = s.motion := rfl
@[simp] theorem State.onFocus_xform (s : State) (f : Focus → Focus) : (s.onFocus f).xform = s.xform := rfl
@[simp] theorem State.onFocus_focus (s : State) (f : Focus → Focus) : (s.onFocus f).focus = f s.focus := rfl
@[simp] theorem State.onFocus_defects (s : State) (f : Focus → Focus) : (s.onFocus f).defects = s.defects := rfl
@[simp] theorem State.onFocus_seq (s : State) (f : Focus → Focus) : (s.onFocus f).seq = s.seq := rfl
@[simp] theorem State.onFocus_lot (s : State) (f : Focus → Focus) : (s.onFocus f).lot = s.lot := rfl
@[simp] theorem State.onFocus_report (s : State) (f : Focus → Focus) : (s.onFocus f).report = s.report := rfl

@[simp] theorem State.onSeq_pending (s : State) (f : Sequencer → Sequencer) : (s.onSeq f).pending = s.pending := rfl
@[simp] theorem State.onSeq_now (s : State) (f : Sequencer → Sequencer) : (s.onSeq f).now = s.now := rfl
@[simp] theorem State.onSeq_mem (s : State) (f : Sequencer → Sequencer) : (s.onSeq f).mem = s.mem := rfl
@[simp] theorem State.onSeq_inReset (s : State) (f : Sequencer → Sequencer) : (s.onSeq f).inReset = s.inReset := rfl
@[simp] theorem State.onSeq_planSel (s : State) (f : Sequencer → Sequencer) : (s.onSeq f).planSel = s.planSel := rfl
@[simp] theorem State.onSeq_hReady (s : State) (f : Sequencer → Sequencer) : (s.onSeq f).hReady = s.hReady := rfl
@[simp] theorem State.onSeq_hData (s : State) (f : Sequencer → Sequencer) : (s.onSeq f).hData = s.hData := rfl
@[simp] theorem State.onSeq_mAccess (s : State) (f : Sequencer → Sequencer) : (s.onSeq f).mAccess = s.mAccess := rfl
@[simp] theorem State.onSeq_hostBusy (s : State) (f : Sequencer → Sequencer) : (s.onSeq f).hostBusy = s.hostBusy := rfl
@[simp] theorem State.onSeq_hostMore (s : State) (f : Sequencer → Sequencer) : (s.onSeq f).hostMore = s.hostMore := rfl
@[simp] theorem State.onSeq_hostWaits (s : State) (f : Sequencer → Sequencer) : (s.onSeq f).hostWaits = s.hostWaits := rfl
@[simp] theorem State.onSeq_map (s : State) (f : Sequencer → Sequencer) : (s.onSeq f).map = s.map := rfl
@[simp] theorem State.onSeq_plan (s : State) (f : Sequencer → Sequencer) : (s.onSeq f).plan = s.plan := rfl
@[simp] theorem State.onSeq_queue (s : State) (f : Sequencer → Sequencer) : (s.onSeq f).queue = s.queue := rfl
@[simp] theorem State.onSeq_waiting (s : State) (f : Sequencer → Sequencer) : (s.onSeq f).waiting = s.waiting := rfl
@[simp] theorem State.onSeq_made (s : State) (f : Sequencer → Sequencer) : (s.onSeq f).made = s.made := rfl
@[simp] theorem State.onSeq_sequel (s : State) (f : Sequencer → Sequencer) : (s.onSeq f).sequel = s.sequel := rfl
@[simp] theorem State.onSeq_named (s : State) (f : Sequencer → Sequencer) : (s.onSeq f).named = s.named := rfl
@[simp] theorem State.onSeq_openCount (s : State) (f : Sequencer → Sequencer) : (s.onSeq f).openCount = s.openCount := rfl
@[simp] theorem State.onSeq_planU (s : State) (f : Sequencer → Sequencer) : (s.onSeq f).planU = s.planU := rfl
@[simp] theorem State.onSeq_hand (s : State) (f : Sequencer → Sequencer) : (s.onSeq f).hand = s.hand := rfl
@[simp] theorem State.onSeq_motion (s : State) (f : Sequencer → Sequencer) : (s.onSeq f).motion = s.motion := rfl
@[simp] theorem State.onSeq_xform (s : State) (f : Sequencer → Sequencer) : (s.onSeq f).xform = s.xform := rfl
@[simp] theorem State.onSeq_focus (s : State) (f : Sequencer → Sequencer) : (s.onSeq f).focus = s.focus := rfl
@[simp] theorem State.onSeq_defects (s : State) (f : Sequencer → Sequencer) : (s.onSeq f).defects = s.defects := rfl
@[simp] theorem State.onSeq_seq (s : State) (f : Sequencer → Sequencer) : (s.onSeq f).seq = f s.seq := rfl
@[simp] theorem State.onSeq_lot (s : State) (f : Sequencer → Sequencer) : (s.onSeq f).lot = s.lot := rfl
@[simp] theorem State.onSeq_report (s : State) (f : Sequencer → Sequencer) : (s.onSeq f).report = s.report := rfl

@[simp] theorem State.setWafer_pending (s : State) (w : Nat) (v : Wafer) : (s.setWafer w v).pending = s.pending := rfl
@[simp] theorem State.setWafer_now (s : State) (w : Nat) (v : Wafer) : (s.setWafer w v).now = s.now := rfl
@[simp] theorem State.setWafer_mem (s : State) (w : Nat) (v : Wafer) : (s.setWafer w v).mem = s.mem := rfl
@[simp] theorem State.setWafer_inReset (s : State) (w : Nat) (v : Wafer) : (s.setWafer w v).inReset = s.inReset := rfl
@[simp] theorem State.setWafer_planSel (s : State) (w : Nat) (v : Wafer) : (s.setWafer w v).planSel = s.planSel := rfl
@[simp] theorem State.setWafer_hReady (s : State) (w : Nat) (v : Wafer) : (s.setWafer w v).hReady = s.hReady := rfl
@[simp] theorem State.setWafer_hData (s : State) (w : Nat) (v : Wafer) : (s.setWafer w v).hData = s.hData := rfl
@[simp] theorem State.setWafer_mAccess (s : State) (w : Nat) (v : Wafer) : (s.setWafer w v).mAccess = s.mAccess := rfl
@[simp] theorem State.setWafer_hostBusy (s : State) (w : Nat) (v : Wafer) : (s.setWafer w v).hostBusy = s.hostBusy := rfl
@[simp] theorem State.setWafer_hostMore (s : State) (w : Nat) (v : Wafer) : (s.setWafer w v).hostMore = s.hostMore := rfl
@[simp] theorem State.setWafer_hostWaits (s : State) (w : Nat) (v : Wafer) : (s.setWafer w v).hostWaits = s.hostWaits := rfl
@[simp] theorem State.setWafer_map (s : State) (w : Nat) (v : Wafer) : (s.setWafer w v).map = s.map := rfl
@[simp] theorem State.setWafer_plan (s : State) (w : Nat) (v : Wafer) : (s.setWafer w v).plan = s.plan := rfl
@[simp] theorem State.setWafer_queue (s : State) (w : Nat) (v : Wafer) : (s.setWafer w v).queue = s.queue := rfl
@[simp] theorem State.setWafer_waiting (s : State) (w : Nat) (v : Wafer) : (s.setWafer w v).waiting = s.waiting := rfl
@[simp] theorem State.setWafer_made (s : State) (w : Nat) (v : Wafer) : (s.setWafer w v).made = s.made := rfl
@[simp] theorem State.setWafer_sequel (s : State) (w : Nat) (v : Wafer) : (s.setWafer w v).sequel = s.sequel := rfl
@[simp] theorem State.setWafer_named (s : State) (w : Nat) (v : Wafer) : (s.setWafer w v).named = s.named := rfl
@[simp] theorem State.setWafer_openCount (s : State) (w : Nat) (v : Wafer) : (s.setWafer w v).openCount = s.openCount := rfl
@[simp] theorem State.setWafer_planU (s : State) (w : Nat) (v : Wafer) : (s.setWafer w v).planU = s.planU := rfl
@[simp] theorem State.setWafer_motion (s : State) (w : Nat) (v : Wafer) : (s.setWafer w v).motion = s.motion := rfl
@[simp] theorem State.setWafer_xform (s : State) (w : Nat) (v : Wafer) : (s.setWafer w v).xform = s.xform := rfl
@[simp] theorem State.setWafer_focus (s : State) (w : Nat) (v : Wafer) : (s.setWafer w v).focus = s.focus := rfl
@[simp] theorem State.setWafer_defects (s : State) (w : Nat) (v : Wafer) : (s.setWafer w v).defects = s.defects := rfl
@[simp] theorem State.setWafer_seq (s : State) (w : Nat) (v : Wafer) : (s.setWafer w v).seq = s.seq := rfl
@[simp] theorem State.setWafer_lot (s : State) (w : Nat) (v : Wafer) : (s.setWafer w v).lot = s.lot := rfl
@[simp] theorem State.setWafer_report (s : State) (w : Nat) (v : Wafer) : (s.setWafer w v).report = s.report := rfl

@[simp] theorem State.setPosn_pending (s : State) (p : Nat) (v : Position) : (s.setPosn p v).pending = s.pending := rfl
@[simp] theorem State.setPosn_now (s : State) (p : Nat) (v : Position) : (s.setPosn p v).now = s.now := rfl
@[simp] theorem State.setPosn_mem (s : State) (p : Nat) (v : Position) : (s.setPosn p v).mem = s.mem := rfl
@[simp] theorem State.setPosn_inReset (s : State) (p : Nat) (v : Position) : (s.setPosn p v).inReset = s.inReset := rfl
@[simp] theorem State.setPosn_planSel (s : State) (p : Nat) (v : Position) : (s.setPosn p v).planSel = s.planSel := rfl
@[simp] theorem State.setPosn_hReady (s : State) (p : Nat) (v : Position) : (s.setPosn p v).hReady = s.hReady := rfl
@[simp] theorem State.setPosn_hData (s : State) (p : Nat) (v : Position) : (s.setPosn p v).hData = s.hData := rfl
@[simp] theorem State.setPosn_mAccess (s : State) (p : Nat) (v : Position) : (s.setPosn p v).mAccess = s.mAccess := rfl
@[simp] theorem State.setPosn_hostBusy (s : State) (p : Nat) (v : Position) : (s.setPosn p v).hostBusy = s.hostBusy := rfl
@[simp] theorem State.setPosn_hostMore (s : State) (p : Nat) (v : Position) : (s.setPosn p v).hostMore = s.hostMore := rfl
@[simp] theorem State.setPosn_hostWaits (s : State) (p : Nat) (v : Position) : (s.setPosn p v).hostWaits = s.hostWaits := rfl
@[simp] theorem State.setPosn_map (s : State) (p : Nat) (v : Position) : (s.setPosn p v).map = s.map := rfl
@[simp] theorem State.setPosn_plan (s : State) (p : Nat) (v : Position) : (s.setPosn p v).plan = s.plan := rfl
@[simp] theorem State.setPosn_queue (s : State) (p : Nat) (v : Position) : (s.setPosn p v).queue = s.queue := rfl
@[simp] theorem State.setPosn_waiting (s : State) (p : Nat) (v : Position) : (s.setPosn p v).waiting = s.waiting := rfl
@[simp] theorem State.setPosn_made (s : State) (p : Nat) (v : Position) : (s.setPosn p v).made = s.made := rfl
@[simp] theorem State.setPosn_sequel (s : State) (p : Nat) (v : Position) : (s.setPosn p v).sequel = s.sequel := rfl
@[simp] theorem State.setPosn_named (s : State) (p : Nat) (v : Position) : (s.setPosn p v).named = s.named := rfl
@[simp] theorem State.setPosn_openCount (s : State) (p : Nat) (v : Position) : (s.setPosn p v).openCount = s.openCount := rfl
@[simp] theorem State.setPosn_planU (s : State) (p : Nat) (v : Position) : (s.setPosn p v).planU = s.planU := rfl
@[simp] theorem State.setPosn_motion (s : State) (p : Nat) (v : Position) : (s.setPosn p v).motion = s.motion := rfl
@[simp] theorem State.setPosn_xform (s : State) (p : Nat) (v : Position) : (s.setPosn p v).xform = s.xform := rfl
@[simp] theorem State.setPosn_focus (s : State) (p : Nat) (v : Position) : (s.setPosn p v).focus = s.focus := rfl
@[simp] theorem State.setPosn_defects (s : State) (p : Nat) (v : Position) : (s.setPosn p v).defects = s.defects := rfl
@[simp] theorem State.setPosn_seq (s : State) (p : Nat) (v : Position) : (s.setPosn p v).seq = s.seq := rfl
@[simp] theorem State.setPosn_lot (s : State) (p : Nat) (v : Position) : (s.setPosn p v).lot = s.lot := rfl
@[simp] theorem State.setPosn_report (s : State) (p : Nat) (v : Position) : (s.setPosn p v).report = s.report := rfl

@[simp] theorem State.setSlot_pending (s : State) (k : Nat) (v : Slot) : (s.setSlot k v).pending = s.pending := rfl
@[simp] theorem State.setSlot_now (s : State) (k : Nat) (v : Slot) : (s.setSlot k v).now = s.now := rfl
@[simp] theorem State.setSlot_mem (s : State) (k : Nat) (v : Slot) : (s.setSlot k v).mem = s.mem := rfl
@[simp] theorem State.setSlot_inReset (s : State) (k : Nat) (v : Slot) : (s.setSlot k v).inReset = s.inReset := rfl
@[simp] theorem State.setSlot_planSel (s : State) (k : Nat) (v : Slot) : (s.setSlot k v).planSel = s.planSel := rfl
@[simp] theorem State.setSlot_hReady (s : State) (k : Nat) (v : Slot) : (s.setSlot k v).hReady = s.hReady := rfl
@[simp] theorem State.setSlot_hData (s : State) (k : Nat) (v : Slot) : (s.setSlot k v).hData = s.hData := rfl
@[simp] theorem State.setSlot_mAccess (s : State) (k : Nat) (v : Slot) : (s.setSlot k v).mAccess = s.mAccess := rfl
@[simp] theorem State.setSlot_hostBusy (s : State) (k : Nat) (v : Slot) : (s.setSlot k v).hostBusy = s.hostBusy := rfl
@[simp] theorem State.setSlot_hostMore (s : State) (k : Nat) (v : Slot) : (s.setSlot k v).hostMore = s.hostMore := rfl
@[simp] theorem State.setSlot_hostWaits (s : State) (k : Nat) (v : Slot) : (s.setSlot k v).hostWaits = s.hostWaits := rfl
@[simp] theorem State.setSlot_map (s : State) (k : Nat) (v : Slot) : (s.setSlot k v).map = s.map := rfl
@[simp] theorem State.setSlot_plan (s : State) (k : Nat) (v : Slot) : (s.setSlot k v).plan = s.plan := rfl
@[simp] theorem State.setSlot_queue (s : State) (k : Nat) (v : Slot) : (s.setSlot k v).queue = s.queue := rfl
@[simp] theorem State.setSlot_waiting (s : State) (k : Nat) (v : Slot) : (s.setSlot k v).waiting = s.waiting := rfl
@[simp] theorem State.setSlot_made (s : State) (k : Nat) (v : Slot) : (s.setSlot k v).made = s.made := rfl
@[simp] theorem State.setSlot_sequel (s : State) (k : Nat) (v : Slot) : (s.setSlot k v).sequel = s.sequel := rfl
@[simp] theorem State.setSlot_named (s : State) (k : Nat) (v : Slot) : (s.setSlot k v).named = s.named := rfl
@[simp] theorem State.setSlot_openCount (s : State) (k : Nat) (v : Slot) : (s.setSlot k v).openCount = s.openCount := rfl
@[simp] theorem State.setSlot_planU (s : State) (k : Nat) (v : Slot) : (s.setSlot k v).planU = s.planU := rfl
@[simp] theorem State.setSlot_motion (s : State) (k : Nat) (v : Slot) : (s.setSlot k v).motion = s.motion := rfl
@[simp] theorem State.setSlot_xform (s : State) (k : Nat) (v : Slot) : (s.setSlot k v).xform = s.xform := rfl
@[simp] theorem State.setSlot_focus (s : State) (k : Nat) (v : Slot) : (s.setSlot k v).focus = s.focus := rfl
@[simp] theorem State.setSlot_defects (s : State) (k : Nat) (v : Slot) : (s.setSlot k v).defects = s.defects := rfl
@[simp] theorem State.setSlot_seq (s : State) (k : Nat) (v : Slot) : (s.setSlot k v).seq = s.seq := rfl
@[simp] theorem State.setSlot_lot (s : State) (k : Nat) (v : Slot) : (s.setSlot k v).lot = s.lot := rfl
@[simp] theorem State.setSlot_report (s : State) (k : Nat) (v : Slot) : (s.setSlot k v).report = s.report := rfl

@[simp] theorem State.setNode_pending (s : State) (n : Nat) (v : Node) : (s.setNode n v).pending = s.pending := rfl
@[simp] theorem State.setNode_now (s : State) (n : Nat) (v : Node) : (s.setNode n v).now = s.now := rfl
@[simp] theorem State.setNode_mem (s : State) (n : Nat) (v : Node) : (s.setNode n v).mem = s.mem := rfl
@[simp] theorem State.setNode_inReset (s : State) (n : Nat) (v : Node) : (s.setNode n v).inReset = s.inReset := rfl
@[simp] theorem State.setNode_planSel (s : State) (n : Nat) (v : Node) : (s.setNode n v).planSel = s.planSel := rfl
@[simp] theorem State.setNode_hReady (s : State) (n : Nat) (v : Node) : (s.setNode n v).hReady = s.hReady := rfl
@[simp] theorem State.setNode_hData (s : State) (n : Nat) (v : Node) : (s.setNode n v).hData = s.hData := rfl
@[simp] theorem State.setNode_mAccess (s : State) (n : Nat) (v : Node) : (s.setNode n v).mAccess = s.mAccess := rfl
@[simp] theorem State.setNode_hostBusy (s : State) (n : Nat) (v : Node) : (s.setNode n v).hostBusy = s.hostBusy := rfl
@[simp] theorem State.setNode_hostMore (s : State) (n : Nat) (v : Node) : (s.setNode n v).hostMore = s.hostMore := rfl
@[simp] theorem State.setNode_hostWaits (s : State) (n : Nat) (v : Node) : (s.setNode n v).hostWaits = s.hostWaits := rfl
@[simp] theorem State.setNode_map (s : State) (n : Nat) (v : Node) : (s.setNode n v).map = s.map := rfl
@[simp] theorem State.setNode_plan (s : State) (n : Nat) (v : Node) : (s.setNode n v).plan = s.plan := rfl
@[simp] theorem State.setNode_queue (s : State) (n : Nat) (v : Node) : (s.setNode n v).queue = s.queue := rfl
@[simp] theorem State.setNode_waiting (s : State) (n : Nat) (v : Node) : (s.setNode n v).waiting = s.waiting := rfl
@[simp] theorem State.setNode_made (s : State) (n : Nat) (v : Node) : (s.setNode n v).made = s.made := rfl
@[simp] theorem State.setNode_sequel (s : State) (n : Nat) (v : Node) : (s.setNode n v).sequel = s.sequel := rfl
@[simp] theorem State.setNode_named (s : State) (n : Nat) (v : Node) : (s.setNode n v).named = s.named := rfl
@[simp] theorem State.setNode_openCount (s : State) (n : Nat) (v : Node) : (s.setNode n v).openCount = s.openCount := rfl
@[simp] theorem State.setNode_planU (s : State) (n : Nat) (v : Node) : (s.setNode n v).planU = s.planU := rfl
@[simp] theorem State.setNode_hand (s : State) (n : Nat) (v : Node) : (s.setNode n v).hand = s.hand := rfl
@[simp] theorem State.setNode_motion (s : State) (n : Nat) (v : Node) : (s.setNode n v).motion = s.motion := rfl
@[simp] theorem State.setNode_xform (s : State) (n : Nat) (v : Node) : (s.setNode n v).xform = s.xform := rfl
@[simp] theorem State.setNode_defects (s : State) (n : Nat) (v : Node) : (s.setNode n v).defects = s.defects := rfl
@[simp] theorem State.setNode_seq (s : State) (n : Nat) (v : Node) : (s.setNode n v).seq = s.seq := rfl
@[simp] theorem State.setNode_lot (s : State) (n : Nat) (v : Node) : (s.setNode n v).lot = s.lot := rfl
@[simp] theorem State.setNode_report (s : State) (n : Nat) (v : Node) : (s.setNode n v).report = s.report := rfl

@[simp] theorem State.setDefect_pending (s : State) (d : Nat) (v : Defect) : (s.setDefect d v).pending = s.pending := rfl
@[simp] theorem State.setDefect_now (s : State) (d : Nat) (v : Defect) : (s.setDefect d v).now = s.now := rfl
@[simp] theorem State.setDefect_mem (s : State) (d : Nat) (v : Defect) : (s.setDefect d v).mem = s.mem := rfl
@[simp] theorem State.setDefect_inReset (s : State) (d : Nat) (v : Defect) : (s.setDefect d v).inReset = s.inReset := rfl
@[simp] theorem State.setDefect_planSel (s : State) (d : Nat) (v : Defect) : (s.setDefect d v).planSel = s.planSel := rfl
@[simp] theorem State.setDefect_hReady (s : State) (d : Nat) (v : Defect) : (s.setDefect d v).hReady = s.hReady := rfl
@[simp] theorem State.setDefect_hData (s : State) (d : Nat) (v : Defect) : (s.setDefect d v).hData = s.hData := rfl
@[simp] theorem State.setDefect_mAccess (s : State) (d : Nat) (v : Defect) : (s.setDefect d v).mAccess = s.mAccess := rfl
@[simp] theorem State.setDefect_hostBusy (s : State) (d : Nat) (v : Defect) : (s.setDefect d v).hostBusy = s.hostBusy := rfl
@[simp] theorem State.setDefect_hostMore (s : State) (d : Nat) (v : Defect) : (s.setDefect d v).hostMore = s.hostMore := rfl
@[simp] theorem State.setDefect_hostWaits (s : State) (d : Nat) (v : Defect) : (s.setDefect d v).hostWaits = s.hostWaits := rfl
@[simp] theorem State.setDefect_map (s : State) (d : Nat) (v : Defect) : (s.setDefect d v).map = s.map := rfl
@[simp] theorem State.setDefect_plan (s : State) (d : Nat) (v : Defect) : (s.setDefect d v).plan = s.plan := rfl
@[simp] theorem State.setDefect_queue (s : State) (d : Nat) (v : Defect) : (s.setDefect d v).queue = s.queue := rfl
@[simp] theorem State.setDefect_waiting (s : State) (d : Nat) (v : Defect) : (s.setDefect d v).waiting = s.waiting := rfl
@[simp] theorem State.setDefect_made (s : State) (d : Nat) (v : Defect) : (s.setDefect d v).made = s.made := rfl
@[simp] theorem State.setDefect_sequel (s : State) (d : Nat) (v : Defect) : (s.setDefect d v).sequel = s.sequel := rfl
@[simp] theorem State.setDefect_named (s : State) (d : Nat) (v : Defect) : (s.setDefect d v).named = s.named := rfl
@[simp] theorem State.setDefect_openCount (s : State) (d : Nat) (v : Defect) : (s.setDefect d v).openCount = s.openCount := rfl
@[simp] theorem State.setDefect_planU (s : State) (d : Nat) (v : Defect) : (s.setDefect d v).planU = s.planU := rfl
@[simp] theorem State.setDefect_hand (s : State) (d : Nat) (v : Defect) : (s.setDefect d v).hand = s.hand := rfl
@[simp] theorem State.setDefect_motion (s : State) (d : Nat) (v : Defect) : (s.setDefect d v).motion = s.motion := rfl
@[simp] theorem State.setDefect_xform (s : State) (d : Nat) (v : Defect) : (s.setDefect d v).xform = s.xform := rfl
@[simp] theorem State.setDefect_focus (s : State) (d : Nat) (v : Defect) : (s.setDefect d v).focus = s.focus := rfl
@[simp] theorem State.setDefect_seq (s : State) (d : Nat) (v : Defect) : (s.setDefect d v).seq = s.seq := rfl
@[simp] theorem State.setDefect_lot (s : State) (d : Nat) (v : Defect) : (s.setDefect d v).lot = s.lot := rfl
@[simp] theorem State.setDefect_report (s : State) (d : Nat) (v : Defect) : (s.setDefect d v).report = s.report := rfl

@[simp] theorem State.setAttr_pending (s : State) (i : Nat) (v : Attribute) : (s.setAttr i v).pending = s.pending := rfl
@[simp] theorem State.setAttr_now (s : State) (i : Nat) (v : Attribute) : (s.setAttr i v).now = s.now := rfl
@[simp] theorem State.setAttr_mem (s : State) (i : Nat) (v : Attribute) : (s.setAttr i v).mem = s.mem := rfl
@[simp] theorem State.setAttr_inReset (s : State) (i : Nat) (v : Attribute) : (s.setAttr i v).inReset = s.inReset := rfl
@[simp] theorem State.setAttr_planSel (s : State) (i : Nat) (v : Attribute) : (s.setAttr i v).planSel = s.planSel := rfl
@[simp] theorem State.setAttr_hReady (s : State) (i : Nat) (v : Attribute) : (s.setAttr i v).hReady = s.hReady := rfl
@[simp] theorem State.setAttr_hData (s : State) (i : Nat) (v : Attribute) : (s.setAttr i v).hData = s.hData := rfl
@[simp] theorem State.setAttr_mAccess (s : State) (i : Nat) (v : Attribute) : (s.setAttr i v).mAccess = s.mAccess := rfl
@[simp] theorem State.setAttr_hostBusy (s : State) (i : Nat) (v : Attribute) : (s.setAttr i v).hostBusy = s.hostBusy := rfl
@[simp] theorem State.setAttr_hostMore (s : State) (i : Nat) (v : Attribute) : (s.setAttr i v).hostMore = s.hostMore := rfl
@[simp] theorem State.setAttr_hostWaits (s : State) (i : Nat) (v : Attribute) : (s.setAttr i v).hostWaits = s.hostWaits := rfl
@[simp] theorem State.setAttr_map (s : State) (i : Nat) (v : Attribute) : (s.setAttr i v).map = s.map := rfl
@[simp] theorem State.setAttr_plan (s : State) (i : Nat) (v : Attribute) : (s.setAttr i v).plan = s.plan := rfl
@[simp] theorem State.setAttr_queue (s : State) (i : Nat) (v : Attribute) : (s.setAttr i v).queue = s.queue := rfl
@[simp] theorem State.setAttr_waiting (s : State) (i : Nat) (v : Attribute) : (s.setAttr i v).waiting = s.waiting := rfl
@[simp] theorem State.setAttr_made (s : State) (i : Nat) (v : Attribute) : (s.setAttr i v).made = s.made := rfl
@[simp] theorem State.setAttr_sequel (s : State) (i : Nat) (v : Attribute) : (s.setAttr i v).sequel = s.sequel := rfl
@[simp] theorem State.setAttr_named (s : State) (i : Nat) (v : Attribute) : (s.setAttr i v).named = s.named := rfl
@[simp] theorem State.setAttr_openCount (s : State) (i : Nat) (v : Attribute) : (s.setAttr i v).openCount = s.openCount := rfl
@[simp] theorem State.setAttr_planU (s : State) (i : Nat) (v : Attribute) : (s.setAttr i v).planU = s.planU := rfl
@[simp] theorem State.setAttr_hand (s : State) (i : Nat) (v : Attribute) : (s.setAttr i v).hand = s.hand := rfl
@[simp] theorem State.setAttr_motion (s : State) (i : Nat) (v : Attribute) : (s.setAttr i v).motion = s.motion := rfl
@[simp] theorem State.setAttr_xform (s : State) (i : Nat) (v : Attribute) : (s.setAttr i v).xform = s.xform := rfl
@[simp] theorem State.setAttr_focus (s : State) (i : Nat) (v : Attribute) : (s.setAttr i v).focus = s.focus := rfl
@[simp] theorem State.setAttr_defects (s : State) (i : Nat) (v : Attribute) : (s.setAttr i v).defects = s.defects := rfl
@[simp] theorem State.setAttr_seq (s : State) (i : Nat) (v : Attribute) : (s.setAttr i v).seq = s.seq := rfl
@[simp] theorem State.setAttr_report (s : State) (i : Nat) (v : Attribute) : (s.setAttr i v).report = s.report := rfl

@[simp] theorem State.event_pending (s : State) (e : Event) : (s.event e).pending = s.pending := rfl
@[simp] theorem State.event_now (s : State) (e : Event) : (s.event e).now = s.now := rfl
@[simp] theorem State.event_mem (s : State) (e : Event) : (s.event e).mem = s.mem := rfl
@[simp] theorem State.event_inReset (s : State) (e : Event) : (s.event e).inReset = s.inReset := rfl
@[simp] theorem State.event_planSel (s : State) (e : Event) : (s.event e).planSel = s.planSel := rfl
@[simp] theorem State.event_hReady (s : State) (e : Event) : (s.event e).hReady = s.hReady := rfl
@[simp] theorem State.event_hData (s : State) (e : Event) : (s.event e).hData = s.hData := rfl
@[simp] theorem State.event_mAccess (s : State) (e : Event) : (s.event e).mAccess = s.mAccess := rfl
@[simp] theorem State.event_hostBusy (s : State) (e : Event) : (s.event e).hostBusy = s.hostBusy := rfl
@[simp] theorem State.event_hostMore (s : State) (e : Event) : (s.event e).hostMore = s.hostMore := rfl
@[simp] theorem State.event_hostWaits (s : State) (e : Event) : (s.event e).hostWaits = s.hostWaits := rfl
@[simp] theorem State.event_map (s : State) (e : Event) : (s.event e).map = s.map := rfl
@[simp] theorem State.event_plan (s : State) (e : Event) : (s.event e).plan = s.plan := rfl
@[simp] theorem State.event_queue (s : State) (e : Event) : (s.event e).queue = s.queue := rfl
@[simp] theorem State.event_waiting (s : State) (e : Event) : (s.event e).waiting = s.waiting := rfl
@[simp] theorem State.event_made (s : State) (e : Event) : (s.event e).made = s.made := rfl
@[simp] theorem State.event_sequel (s : State) (e : Event) : (s.event e).sequel = s.sequel := rfl
@[simp] theorem State.event_named (s : State) (e : Event) : (s.event e).named = s.named := rfl
@[simp] theorem State.event_openCount (s : State) (e : Event) : (s.event e).openCount = s.openCount := rfl
@[simp] theorem State.event_planU (s : State) (e : Event) : (s.event e).planU = s.planU := rfl
@[simp] theorem State.event_hand (s : State) (e : Event) : (s.event e).hand = s.hand := rfl
@[simp] theorem State.event_motion (s : State) (e : Event) : (s.event e).motion = s.motion := rfl
@[simp] theorem State.event_xform (s : State) (e : Event) : (s.event e).xform = s.xform := rfl
@[simp] theorem State.event_focus (s : State) (e : Event) : (s.event e).focus = s.focus := rfl
@[simp] theorem State.event_defects (s : State) (e : Event) : (s.event e).defects = s.defects := rfl
@[simp] theorem State.event_seq (s : State) (e : Event) : (s.event e).seq = s.seq := rfl
@[simp] theorem State.event_lot (s : State) (e : Event) : (s.event e).lot = s.lot := rfl

@[simp] theorem State.emit_pending (s : State) (op : StepOp) : (s.emit op).pending = s.pending := rfl
@[simp] theorem State.emit_now (s : State) (op : StepOp) : (s.emit op).now = s.now := rfl
@[simp] theorem State.emit_mem (s : State) (op : StepOp) : (s.emit op).mem = s.mem := rfl
@[simp] theorem State.emit_inReset (s : State) (op : StepOp) : (s.emit op).inReset = s.inReset := rfl
@[simp] theorem State.emit_planSel (s : State) (op : StepOp) : (s.emit op).planSel = s.planSel := rfl
@[simp] theorem State.emit_hReady (s : State) (op : StepOp) : (s.emit op).hReady = s.hReady := rfl
@[simp] theorem State.emit_hData (s : State) (op : StepOp) : (s.emit op).hData = s.hData := rfl
@[simp] theorem State.emit_mAccess (s : State) (op : StepOp) : (s.emit op).mAccess = s.mAccess := rfl
@[simp] theorem State.emit_hostBusy (s : State) (op : StepOp) : (s.emit op).hostBusy = s.hostBusy := rfl
@[simp] theorem State.emit_hostMore (s : State) (op : StepOp) : (s.emit op).hostMore = s.hostMore := rfl
@[simp] theorem State.emit_hostWaits (s : State) (op : StepOp) : (s.emit op).hostWaits = s.hostWaits := rfl
@[simp] theorem State.emit_map (s : State) (op : StepOp) : (s.emit op).map = s.map := rfl
@[simp] theorem State.emit_plan (s : State) (op : StepOp) : (s.emit op).plan = s.plan := rfl
@[simp] theorem State.emit_queue (s : State) (op : StepOp) : (s.emit op).queue = s.queue := rfl
@[simp] theorem State.emit_waiting (s : State) (op : StepOp) : (s.emit op).waiting = s.waiting := rfl
@[simp] theorem State.emit_made (s : State) (op : StepOp) : (s.emit op).made = s.made ++ [[op]] := rfl
@[simp] theorem State.emit_sequel (s : State) (op : StepOp) : (s.emit op).sequel = s.sequel := rfl
@[simp] theorem State.emit_named (s : State) (op : StepOp) : (s.emit op).named = s.named := rfl
@[simp] theorem State.emit_openCount (s : State) (op : StepOp) : (s.emit op).openCount = s.openCount := rfl
@[simp] theorem State.emit_planU (s : State) (op : StepOp) : (s.emit op).planU = s.planU := rfl
@[simp] theorem State.emit_hand (s : State) (op : StepOp) : (s.emit op).hand = s.hand := rfl
@[simp] theorem State.emit_motion (s : State) (op : StepOp) : (s.emit op).motion = s.motion := rfl
@[simp] theorem State.emit_xform (s : State) (op : StepOp) : (s.emit op).xform = s.xform := rfl
@[simp] theorem State.emit_focus (s : State) (op : StepOp) : (s.emit op).focus = s.focus := rfl
@[simp] theorem State.emit_defects (s : State) (op : StepOp) : (s.emit op).defects = s.defects := rfl
@[simp] theorem State.emit_seq (s : State) (op : StepOp) : (s.emit op).seq = s.seq := rfl
@[simp] theorem State.emit_lot (s : State) (op : StepOp) : (s.emit op).lot = s.lot := rfl
@[simp] theorem State.emit_report (s : State) (op : StepOp) : (s.emit op).report = s.report := rfl

@[simp] theorem State.emits_pending (s : State) (ops : Task) : (s.emits ops).pending = s.pending := rfl
@[simp] theorem State.emits_now (s : State) (ops : Task) : (s.emits ops).now = s.now := rfl
@[simp] theorem State.emits_mem (s : State) (ops : Task) : (s.emits ops).mem = s.mem := rfl
@[simp] theorem State.emits_inReset (s : State) (ops : Task) : (s.emits ops).inReset = s.inReset := rfl
@[simp] theorem State.emits_planSel (s : State) (ops : Task) : (s.emits ops).planSel = s.planSel := rfl
@[simp] theorem State.emits_hReady (s : State) (ops : Task) : (s.emits ops).hReady = s.hReady := rfl
@[simp] theorem State.emits_hData (s : State) (ops : Task) : (s.emits ops).hData = s.hData := rfl
@[simp] theorem State.emits_mAccess (s : State) (ops : Task) : (s.emits ops).mAccess = s.mAccess := rfl
@[simp] theorem State.emits_hostBusy (s : State) (ops : Task) : (s.emits ops).hostBusy = s.hostBusy := rfl
@[simp] theorem State.emits_hostMore (s : State) (ops : Task) : (s.emits ops).hostMore = s.hostMore := rfl
@[simp] theorem State.emits_hostWaits (s : State) (ops : Task) : (s.emits ops).hostWaits = s.hostWaits := rfl
@[simp] theorem State.emits_map (s : State) (ops : Task) : (s.emits ops).map = s.map := rfl
@[simp] theorem State.emits_plan (s : State) (ops : Task) : (s.emits ops).plan = s.plan := rfl
@[simp] theorem State.emits_queue (s : State) (ops : Task) : (s.emits ops).queue = s.queue := rfl
@[simp] theorem State.emits_waiting (s : State) (ops : Task) : (s.emits ops).waiting = s.waiting := rfl
@[simp] theorem State.emits_made (s : State) (ops : Task) : (s.emits ops).made = s.made ++ [ops] := rfl
@[simp] theorem State.emits_sequel (s : State) (ops : Task) : (s.emits ops).sequel = s.sequel := rfl
@[simp] theorem State.emits_named (s : State) (ops : Task) : (s.emits ops).named = s.named := rfl
@[simp] theorem State.emits_openCount (s : State) (ops : Task) : (s.emits ops).openCount = s.openCount := rfl
@[simp] theorem State.emits_planU (s : State) (ops : Task) : (s.emits ops).planU = s.planU := rfl
@[simp] theorem State.emits_hand (s : State) (ops : Task) : (s.emits ops).hand = s.hand := rfl
@[simp] theorem State.emits_motion (s : State) (ops : Task) : (s.emits ops).motion = s.motion := rfl
@[simp] theorem State.emits_xform (s : State) (ops : Task) : (s.emits ops).xform = s.xform := rfl
@[simp] theorem State.emits_focus (s : State) (ops : Task) : (s.emits ops).focus = s.focus := rfl
@[simp] theorem State.emits_defects (s : State) (ops : Task) : (s.emits ops).defects = s.defects := rfl
@[simp] theorem State.emits_seq (s : State) (ops : Task) : (s.emits ops).seq = s.seq := rfl
@[simp] theorem State.emits_lot (s : State) (ops : Task) : (s.emits ops).lot = s.lot := rfl
@[simp] theorem State.emits_report (s : State) (ops : Task) : (s.emits ops).report = s.report := rfl
@[simp] theorem State.emitEach_pending (s : State) (ops : List StepOp) : (s.emitEach ops).pending = s.pending := rfl
@[simp] theorem State.emitEach_now (s : State) (ops : List StepOp) : (s.emitEach ops).now = s.now := rfl
@[simp] theorem State.emitEach_mem (s : State) (ops : List StepOp) : (s.emitEach ops).mem = s.mem := rfl
@[simp] theorem State.emitEach_inReset (s : State) (ops : List StepOp) : (s.emitEach ops).inReset = s.inReset := rfl
@[simp] theorem State.emitEach_planSel (s : State) (ops : List StepOp) : (s.emitEach ops).planSel = s.planSel := rfl
@[simp] theorem State.emitEach_hReady (s : State) (ops : List StepOp) : (s.emitEach ops).hReady = s.hReady := rfl
@[simp] theorem State.emitEach_hData (s : State) (ops : List StepOp) : (s.emitEach ops).hData = s.hData := rfl
@[simp] theorem State.emitEach_mAccess (s : State) (ops : List StepOp) : (s.emitEach ops).mAccess = s.mAccess := rfl
@[simp] theorem State.emitEach_hostBusy (s : State) (ops : List StepOp) : (s.emitEach ops).hostBusy = s.hostBusy := rfl
@[simp] theorem State.emitEach_hostMore (s : State) (ops : List StepOp) : (s.emitEach ops).hostMore = s.hostMore := rfl
@[simp] theorem State.emitEach_hostWaits (s : State) (ops : List StepOp) : (s.emitEach ops).hostWaits = s.hostWaits := rfl
@[simp] theorem State.emitEach_map (s : State) (ops : List StepOp) : (s.emitEach ops).map = s.map := rfl
@[simp] theorem State.emitEach_plan (s : State) (ops : List StepOp) : (s.emitEach ops).plan = s.plan := rfl
@[simp] theorem State.emitEach_queue (s : State) (ops : List StepOp) : (s.emitEach ops).queue = s.queue := rfl
@[simp] theorem State.emitEach_waiting (s : State) (ops : List StepOp) : (s.emitEach ops).waiting = s.waiting := rfl
@[simp] theorem State.emitEach_made (s : State) (ops : List StepOp) : (s.emitEach ops).made = s.made ++ ops.map fun op => [op] := rfl
@[simp] theorem State.emitEach_sequel (s : State) (ops : List StepOp) : (s.emitEach ops).sequel = s.sequel := rfl
@[simp] theorem State.emitEach_named (s : State) (ops : List StepOp) : (s.emitEach ops).named = s.named := rfl
@[simp] theorem State.emitEach_openCount (s : State) (ops : List StepOp) : (s.emitEach ops).openCount = s.openCount := rfl
@[simp] theorem State.emitEach_planU (s : State) (ops : List StepOp) : (s.emitEach ops).planU = s.planU := rfl
@[simp] theorem State.emitEach_hand (s : State) (ops : List StepOp) : (s.emitEach ops).hand = s.hand := rfl
@[simp] theorem State.emitEach_motion (s : State) (ops : List StepOp) : (s.emitEach ops).motion = s.motion := rfl
@[simp] theorem State.emitEach_xform (s : State) (ops : List StepOp) : (s.emitEach ops).xform = s.xform := rfl
@[simp] theorem State.emitEach_focus (s : State) (ops : List StepOp) : (s.emitEach ops).focus = s.focus := rfl
@[simp] theorem State.emitEach_defects (s : State) (ops : List StepOp) : (s.emitEach ops).defects = s.defects := rfl
@[simp] theorem State.emitEach_seq (s : State) (ops : List StepOp) : (s.emitEach ops).seq = s.seq := rfl
@[simp] theorem State.emitEach_lot (s : State) (ops : List StepOp) : (s.emitEach ops).lot = s.lot := rfl
@[simp] theorem State.emitEach_report (s : State) (ops : List StepOp) : (s.emitEach ops).report = s.report := rfl

@[simp] theorem State.name_pending (s : State) (ws : List WordRef) : (s.name ws).pending = s.pending := rfl
@[simp] theorem State.name_now (s : State) (ws : List WordRef) : (s.name ws).now = s.now := rfl
@[simp] theorem State.name_mem (s : State) (ws : List WordRef) : (s.name ws).mem = s.mem := rfl
@[simp] theorem State.name_inReset (s : State) (ws : List WordRef) : (s.name ws).inReset = s.inReset := rfl
@[simp] theorem State.name_planSel (s : State) (ws : List WordRef) : (s.name ws).planSel = s.planSel := rfl
@[simp] theorem State.name_hReady (s : State) (ws : List WordRef) : (s.name ws).hReady = s.hReady := rfl
@[simp] theorem State.name_hData (s : State) (ws : List WordRef) : (s.name ws).hData = s.hData := rfl
@[simp] theorem State.name_mAccess (s : State) (ws : List WordRef) : (s.name ws).mAccess = s.mAccess := rfl
@[simp] theorem State.name_hostBusy (s : State) (ws : List WordRef) : (s.name ws).hostBusy = s.hostBusy := rfl
@[simp] theorem State.name_hostMore (s : State) (ws : List WordRef) : (s.name ws).hostMore = s.hostMore := rfl
@[simp] theorem State.name_hostWaits (s : State) (ws : List WordRef) : (s.name ws).hostWaits = s.hostWaits := rfl
@[simp] theorem State.name_map (s : State) (ws : List WordRef) : (s.name ws).map = s.map := rfl
@[simp] theorem State.name_plan (s : State) (ws : List WordRef) : (s.name ws).plan = s.plan := rfl
@[simp] theorem State.name_queue (s : State) (ws : List WordRef) : (s.name ws).queue = s.queue := rfl
@[simp] theorem State.name_waiting (s : State) (ws : List WordRef) : (s.name ws).waiting = s.waiting := rfl
@[simp] theorem State.name_made (s : State) (ws : List WordRef) : (s.name ws).made = s.made := rfl
@[simp] theorem State.name_sequel (s : State) (ws : List WordRef) : (s.name ws).sequel = s.sequel := rfl
@[simp] theorem State.name_named (s : State) (ws : List WordRef) : (s.name ws).named = ws.foldl nameWord s.named := rfl
@[simp] theorem State.name_openCount (s : State) (ws : List WordRef) : (s.name ws).openCount = s.openCount := rfl
@[simp] theorem State.name_planU (s : State) (ws : List WordRef) : (s.name ws).planU = s.planU := rfl
@[simp] theorem State.name_hand (s : State) (ws : List WordRef) : (s.name ws).hand = s.hand := rfl
@[simp] theorem State.name_motion (s : State) (ws : List WordRef) : (s.name ws).motion = s.motion := rfl
@[simp] theorem State.name_xform (s : State) (ws : List WordRef) : (s.name ws).xform = s.xform := rfl
@[simp] theorem State.name_focus (s : State) (ws : List WordRef) : (s.name ws).focus = s.focus := rfl
@[simp] theorem State.name_defects (s : State) (ws : List WordRef) : (s.name ws).defects = s.defects := rfl
@[simp] theorem State.name_seq (s : State) (ws : List WordRef) : (s.name ws).seq = s.seq := rfl
@[simp] theorem State.name_lot (s : State) (ws : List WordRef) : (s.name ws).lot = s.lot := rfl
@[simp] theorem State.name_report (s : State) (ws : List WordRef) : (s.name ws).report = s.report := rfl

@[simp] theorem State.goOn_pending (s : State) (ops : Task) : (s.goOn ops).pending = s.pending := rfl
@[simp] theorem State.goOn_now (s : State) (ops : Task) : (s.goOn ops).now = s.now := rfl
@[simp] theorem State.goOn_mem (s : State) (ops : Task) : (s.goOn ops).mem = s.mem := rfl
@[simp] theorem State.goOn_inReset (s : State) (ops : Task) : (s.goOn ops).inReset = s.inReset := rfl
@[simp] theorem State.goOn_planSel (s : State) (ops : Task) : (s.goOn ops).planSel = s.planSel := rfl
@[simp] theorem State.goOn_hReady (s : State) (ops : Task) : (s.goOn ops).hReady = s.hReady := rfl
@[simp] theorem State.goOn_hData (s : State) (ops : Task) : (s.goOn ops).hData = s.hData := rfl
@[simp] theorem State.goOn_mAccess (s : State) (ops : Task) : (s.goOn ops).mAccess = s.mAccess := rfl
@[simp] theorem State.goOn_hostBusy (s : State) (ops : Task) : (s.goOn ops).hostBusy = s.hostBusy := rfl
@[simp] theorem State.goOn_hostMore (s : State) (ops : Task) : (s.goOn ops).hostMore = s.hostMore := rfl
@[simp] theorem State.goOn_hostWaits (s : State) (ops : Task) : (s.goOn ops).hostWaits = s.hostWaits := rfl
@[simp] theorem State.goOn_map (s : State) (ops : Task) : (s.goOn ops).map = s.map := rfl
@[simp] theorem State.goOn_plan (s : State) (ops : Task) : (s.goOn ops).plan = s.plan := rfl
@[simp] theorem State.goOn_queue (s : State) (ops : Task) : (s.goOn ops).queue = s.queue := rfl
@[simp] theorem State.goOn_waiting (s : State) (ops : Task) : (s.goOn ops).waiting = s.waiting := rfl
@[simp] theorem State.goOn_made (s : State) (ops : Task) : (s.goOn ops).made = s.made := rfl
@[simp] theorem State.goOn_sequel (s : State) (ops : Task) : (s.goOn ops).sequel = s.sequel ++ ops := rfl
@[simp] theorem State.goOn_named (s : State) (ops : Task) : (s.goOn ops).named = s.named := rfl
@[simp] theorem State.goOn_openCount (s : State) (ops : Task) : (s.goOn ops).openCount = s.openCount := rfl
@[simp] theorem State.goOn_planU (s : State) (ops : Task) : (s.goOn ops).planU = s.planU := rfl
@[simp] theorem State.goOn_hand (s : State) (ops : Task) : (s.goOn ops).hand = s.hand := rfl
@[simp] theorem State.goOn_motion (s : State) (ops : Task) : (s.goOn ops).motion = s.motion := rfl
@[simp] theorem State.goOn_xform (s : State) (ops : Task) : (s.goOn ops).xform = s.xform := rfl
@[simp] theorem State.goOn_focus (s : State) (ops : Task) : (s.goOn ops).focus = s.focus := rfl
@[simp] theorem State.goOn_defects (s : State) (ops : Task) : (s.goOn ops).defects = s.defects := rfl
@[simp] theorem State.goOn_seq (s : State) (ops : Task) : (s.goOn ops).seq = s.seq := rfl
@[simp] theorem State.goOn_lot (s : State) (ops : Task) : (s.goOn ops).lot = s.lot := rfl
@[simp] theorem State.goOn_report (s : State) (ops : Task) : (s.goOn ops).report = s.report := rfl

@[simp] theorem State.setDebounce_pending (s : State) (k : Nat) (v : Debounce) : (s.setDebounce k v).pending = s.pending := rfl
@[simp] theorem State.setDebounce_now (s : State) (k : Nat) (v : Debounce) : (s.setDebounce k v).now = s.now := rfl
@[simp] theorem State.setDebounce_mem (s : State) (k : Nat) (v : Debounce) : (s.setDebounce k v).mem = s.mem := rfl
@[simp] theorem State.setDebounce_inReset (s : State) (k : Nat) (v : Debounce) : (s.setDebounce k v).inReset = s.inReset := rfl
@[simp] theorem State.setDebounce_planSel (s : State) (k : Nat) (v : Debounce) : (s.setDebounce k v).planSel = s.planSel := rfl
@[simp] theorem State.setDebounce_hReady (s : State) (k : Nat) (v : Debounce) : (s.setDebounce k v).hReady = s.hReady := rfl
@[simp] theorem State.setDebounce_hData (s : State) (k : Nat) (v : Debounce) : (s.setDebounce k v).hData = s.hData := rfl
@[simp] theorem State.setDebounce_mAccess (s : State) (k : Nat) (v : Debounce) : (s.setDebounce k v).mAccess = s.mAccess := rfl
@[simp] theorem State.setDebounce_hostBusy (s : State) (k : Nat) (v : Debounce) : (s.setDebounce k v).hostBusy = s.hostBusy := rfl
@[simp] theorem State.setDebounce_hostMore (s : State) (k : Nat) (v : Debounce) : (s.setDebounce k v).hostMore = s.hostMore := rfl
@[simp] theorem State.setDebounce_hostWaits (s : State) (k : Nat) (v : Debounce) : (s.setDebounce k v).hostWaits = s.hostWaits := rfl
@[simp] theorem State.setDebounce_map (s : State) (k : Nat) (v : Debounce) : (s.setDebounce k v).map = s.map := rfl
@[simp] theorem State.setDebounce_plan (s : State) (k : Nat) (v : Debounce) : (s.setDebounce k v).plan = s.plan := rfl
@[simp] theorem State.setDebounce_queue (s : State) (k : Nat) (v : Debounce) : (s.setDebounce k v).queue = s.queue := rfl
@[simp] theorem State.setDebounce_waiting (s : State) (k : Nat) (v : Debounce) : (s.setDebounce k v).waiting = s.waiting := rfl
@[simp] theorem State.setDebounce_made (s : State) (k : Nat) (v : Debounce) : (s.setDebounce k v).made = s.made := rfl
@[simp] theorem State.setDebounce_sequel (s : State) (k : Nat) (v : Debounce) : (s.setDebounce k v).sequel = s.sequel := rfl
@[simp] theorem State.setDebounce_named (s : State) (k : Nat) (v : Debounce) : (s.setDebounce k v).named = s.named := rfl
@[simp] theorem State.setDebounce_openCount (s : State) (k : Nat) (v : Debounce) : (s.setDebounce k v).openCount = s.openCount := rfl
@[simp] theorem State.setDebounce_planU (s : State) (k : Nat) (v : Debounce) : (s.setDebounce k v).planU = s.planU := rfl
@[simp] theorem State.setDebounce_motion (s : State) (k : Nat) (v : Debounce) : (s.setDebounce k v).motion = s.motion := rfl
@[simp] theorem State.setDebounce_xform (s : State) (k : Nat) (v : Debounce) : (s.setDebounce k v).xform = s.xform := rfl
@[simp] theorem State.setDebounce_focus (s : State) (k : Nat) (v : Debounce) : (s.setDebounce k v).focus = s.focus := rfl
@[simp] theorem State.setDebounce_defects (s : State) (k : Nat) (v : Debounce) : (s.setDebounce k v).defects = s.defects := rfl
@[simp] theorem State.setDebounce_seq (s : State) (k : Nat) (v : Debounce) : (s.setDebounce k v).seq = s.seq := rfl
@[simp] theorem State.setDebounce_lot (s : State) (k : Nat) (v : Debounce) : (s.setDebounce k v).lot = s.lot := rfl
@[simp] theorem State.setDebounce_report (s : State) (k : Nat) (v : Debounce) : (s.setDebounce k v).report = s.report := rfl

@[simp] theorem State.changeMotion_pending (s : State) (f : Motion → Motion) : (s.changeMotion f).pending = s.pending := rfl
@[simp] theorem State.changeMotion_now (s : State) (f : Motion → Motion) : (s.changeMotion f).now = s.now := rfl
@[simp] theorem State.changeMotion_mem (s : State) (f : Motion → Motion) : (s.changeMotion f).mem = s.mem := rfl
@[simp] theorem State.changeMotion_inReset (s : State) (f : Motion → Motion) : (s.changeMotion f).inReset = s.inReset := rfl
@[simp] theorem State.changeMotion_planSel (s : State) (f : Motion → Motion) : (s.changeMotion f).planSel = s.planSel := rfl
@[simp] theorem State.changeMotion_hReady (s : State) (f : Motion → Motion) : (s.changeMotion f).hReady = s.hReady := rfl
@[simp] theorem State.changeMotion_hData (s : State) (f : Motion → Motion) : (s.changeMotion f).hData = s.hData := rfl
@[simp] theorem State.changeMotion_mAccess (s : State) (f : Motion → Motion) : (s.changeMotion f).mAccess = s.mAccess := rfl
@[simp] theorem State.changeMotion_hostBusy (s : State) (f : Motion → Motion) : (s.changeMotion f).hostBusy = s.hostBusy := rfl
@[simp] theorem State.changeMotion_hostMore (s : State) (f : Motion → Motion) : (s.changeMotion f).hostMore = s.hostMore := rfl
@[simp] theorem State.changeMotion_hostWaits (s : State) (f : Motion → Motion) : (s.changeMotion f).hostWaits = s.hostWaits := rfl
@[simp] theorem State.changeMotion_map (s : State) (f : Motion → Motion) : (s.changeMotion f).map = s.map := rfl
@[simp] theorem State.changeMotion_plan (s : State) (f : Motion → Motion) : (s.changeMotion f).plan = s.plan := rfl
@[simp] theorem State.changeMotion_queue (s : State) (f : Motion → Motion) : (s.changeMotion f).queue = s.queue := rfl
@[simp] theorem State.changeMotion_waiting (s : State) (f : Motion → Motion) : (s.changeMotion f).waiting = s.waiting := rfl
@[simp] theorem State.changeMotion_sequel (s : State) (f : Motion → Motion) : (s.changeMotion f).sequel = s.sequel := rfl
@[simp] theorem State.changeMotion_named (s : State) (f : Motion → Motion) : (s.changeMotion f).named = s.named := rfl
@[simp] theorem State.changeMotion_openCount (s : State) (f : Motion → Motion) : (s.changeMotion f).openCount = s.openCount := rfl
@[simp] theorem State.changeMotion_planU (s : State) (f : Motion → Motion) : (s.changeMotion f).planU = s.planU := rfl
@[simp] theorem State.changeMotion_hand (s : State) (f : Motion → Motion) : (s.changeMotion f).hand = s.hand := rfl
@[simp] theorem State.changeMotion_motion (s : State) (f : Motion → Motion) : (s.changeMotion f).motion = f s.motion := rfl
@[simp] theorem State.changeMotion_xform (s : State) (f : Motion → Motion) : (s.changeMotion f).xform = s.xform := rfl
@[simp] theorem State.changeMotion_focus (s : State) (f : Motion → Motion) : (s.changeMotion f).focus = s.focus := rfl
@[simp] theorem State.changeMotion_defects (s : State) (f : Motion → Motion) : (s.changeMotion f).defects = s.defects := rfl
@[simp] theorem State.changeMotion_seq (s : State) (f : Motion → Motion) : (s.changeMotion f).seq = s.seq := rfl
@[simp] theorem State.changeMotion_lot (s : State) (f : Motion → Motion) : (s.changeMotion f).lot = s.lot := rfl
@[simp] theorem State.changeMotion_report (s : State) (f : Motion → Motion) : (s.changeMotion f).report = s.report := rfl

@[simp] theorem State.changeSeq_pending (s : State) (f : Sequencer → Sequencer) : (s.changeSeq f).pending = s.pending := rfl
@[simp] theorem State.changeSeq_now (s : State) (f : Sequencer → Sequencer) : (s.changeSeq f).now = s.now := rfl
@[simp] theorem State.changeSeq_mem (s : State) (f : Sequencer → Sequencer) : (s.changeSeq f).mem = s.mem := rfl
@[simp] theorem State.changeSeq_inReset (s : State) (f : Sequencer → Sequencer) : (s.changeSeq f).inReset = s.inReset := rfl
@[simp] theorem State.changeSeq_planSel (s : State) (f : Sequencer → Sequencer) : (s.changeSeq f).planSel = s.planSel := rfl
@[simp] theorem State.changeSeq_hReady (s : State) (f : Sequencer → Sequencer) : (s.changeSeq f).hReady = s.hReady := rfl
@[simp] theorem State.changeSeq_hData (s : State) (f : Sequencer → Sequencer) : (s.changeSeq f).hData = s.hData := rfl
@[simp] theorem State.changeSeq_mAccess (s : State) (f : Sequencer → Sequencer) : (s.changeSeq f).mAccess = s.mAccess := rfl
@[simp] theorem State.changeSeq_hostBusy (s : State) (f : Sequencer → Sequencer) : (s.changeSeq f).hostBusy = s.hostBusy := rfl
@[simp] theorem State.changeSeq_hostMore (s : State) (f : Sequencer → Sequencer) : (s.changeSeq f).hostMore = s.hostMore := rfl
@[simp] theorem State.changeSeq_hostWaits (s : State) (f : Sequencer → Sequencer) : (s.changeSeq f).hostWaits = s.hostWaits := rfl
@[simp] theorem State.changeSeq_map (s : State) (f : Sequencer → Sequencer) : (s.changeSeq f).map = s.map := rfl
@[simp] theorem State.changeSeq_plan (s : State) (f : Sequencer → Sequencer) : (s.changeSeq f).plan = s.plan := rfl
@[simp] theorem State.changeSeq_queue (s : State) (f : Sequencer → Sequencer) : (s.changeSeq f).queue = s.queue := rfl
@[simp] theorem State.changeSeq_waiting (s : State) (f : Sequencer → Sequencer) : (s.changeSeq f).waiting = s.waiting := rfl
@[simp] theorem State.changeSeq_sequel (s : State) (f : Sequencer → Sequencer) : (s.changeSeq f).sequel = s.sequel := rfl
@[simp] theorem State.changeSeq_named (s : State) (f : Sequencer → Sequencer) : (s.changeSeq f).named = s.named := rfl
@[simp] theorem State.changeSeq_openCount (s : State) (f : Sequencer → Sequencer) : (s.changeSeq f).openCount = s.openCount := rfl
@[simp] theorem State.changeSeq_planU (s : State) (f : Sequencer → Sequencer) : (s.changeSeq f).planU = s.planU := rfl
@[simp] theorem State.changeSeq_hand (s : State) (f : Sequencer → Sequencer) : (s.changeSeq f).hand = s.hand := rfl
@[simp] theorem State.changeSeq_motion (s : State) (f : Sequencer → Sequencer) : (s.changeSeq f).motion = s.motion := rfl
@[simp] theorem State.changeSeq_xform (s : State) (f : Sequencer → Sequencer) : (s.changeSeq f).xform = s.xform := rfl
@[simp] theorem State.changeSeq_focus (s : State) (f : Sequencer → Sequencer) : (s.changeSeq f).focus = s.focus := rfl
@[simp] theorem State.changeSeq_defects (s : State) (f : Sequencer → Sequencer) : (s.changeSeq f).defects = s.defects := rfl
@[simp] theorem State.changeSeq_seq (s : State) (f : Sequencer → Sequencer) : (s.changeSeq f).seq = f s.seq := rfl
@[simp] theorem State.changeSeq_lot (s : State) (f : Sequencer → Sequencer) : (s.changeSeq f).lot = s.lot := rfl
@[simp] theorem State.changeSeq_report (s : State) (f : Sequencer → Sequencer) : (s.changeSeq f).report = s.report := rfl

@[simp] theorem State.memWrite_pending (s : State) (a : Nat) (be : BitVec 4) (d : Word) : (s.memWrite a be d).pending = s.pending := rfl
@[simp] theorem State.memWrite_now (s : State) (a : Nat) (be : BitVec 4) (d : Word) : (s.memWrite a be d).now = s.now := rfl
@[simp] theorem State.memWrite_mem (s : State) (a : Nat) (be : BitVec 4) (d : Word) : (s.memWrite a be d).mem = writeWordAt s.mem a be d := rfl
@[simp] theorem State.memWrite_inReset (s : State) (a : Nat) (be : BitVec 4) (d : Word) : (s.memWrite a be d).inReset = s.inReset := rfl
@[simp] theorem State.memWrite_planSel (s : State) (a : Nat) (be : BitVec 4) (d : Word) : (s.memWrite a be d).planSel = s.planSel := rfl
@[simp] theorem State.memWrite_hReady (s : State) (a : Nat) (be : BitVec 4) (d : Word) : (s.memWrite a be d).hReady = s.hReady := rfl
@[simp] theorem State.memWrite_hData (s : State) (a : Nat) (be : BitVec 4) (d : Word) : (s.memWrite a be d).hData = s.hData := rfl
@[simp] theorem State.memWrite_hostBusy (s : State) (a : Nat) (be : BitVec 4) (d : Word) : (s.memWrite a be d).hostBusy = s.hostBusy := rfl
@[simp] theorem State.memWrite_hostMore (s : State) (a : Nat) (be : BitVec 4) (d : Word) : (s.memWrite a be d).hostMore = s.hostMore := rfl
@[simp] theorem State.memWrite_hostWaits (s : State) (a : Nat) (be : BitVec 4) (d : Word) : (s.memWrite a be d).hostWaits = s.hostWaits := rfl
@[simp] theorem State.memWrite_map (s : State) (a : Nat) (be : BitVec 4) (d : Word) : (s.memWrite a be d).map = s.map := rfl
@[simp] theorem State.memWrite_plan (s : State) (a : Nat) (be : BitVec 4) (d : Word) : (s.memWrite a be d).plan = s.plan := rfl
@[simp] theorem State.memWrite_queue (s : State) (a : Nat) (be : BitVec 4) (d : Word) : (s.memWrite a be d).queue = s.queue := rfl
@[simp] theorem State.memWrite_waiting (s : State) (a : Nat) (be : BitVec 4) (d : Word) : (s.memWrite a be d).waiting = s.waiting := rfl
@[simp] theorem State.memWrite_made (s : State) (a : Nat) (be : BitVec 4) (d : Word) : (s.memWrite a be d).made = s.made := rfl
@[simp] theorem State.memWrite_sequel (s : State) (a : Nat) (be : BitVec 4) (d : Word) : (s.memWrite a be d).sequel = s.sequel := rfl
@[simp] theorem State.memWrite_named (s : State) (a : Nat) (be : BitVec 4) (d : Word) : (s.memWrite a be d).named = s.named := rfl
@[simp] theorem State.memWrite_openCount (s : State) (a : Nat) (be : BitVec 4) (d : Word) : (s.memWrite a be d).openCount = s.openCount := rfl
@[simp] theorem State.memWrite_planU (s : State) (a : Nat) (be : BitVec 4) (d : Word) : (s.memWrite a be d).planU = s.planU := rfl
@[simp] theorem State.memWrite_hand (s : State) (a : Nat) (be : BitVec 4) (d : Word) : (s.memWrite a be d).hand = s.hand := rfl
@[simp] theorem State.memWrite_motion (s : State) (a : Nat) (be : BitVec 4) (d : Word) : (s.memWrite a be d).motion = s.motion := rfl
@[simp] theorem State.memWrite_xform (s : State) (a : Nat) (be : BitVec 4) (d : Word) : (s.memWrite a be d).xform = s.xform := rfl
@[simp] theorem State.memWrite_focus (s : State) (a : Nat) (be : BitVec 4) (d : Word) : (s.memWrite a be d).focus = s.focus := rfl
@[simp] theorem State.memWrite_defects (s : State) (a : Nat) (be : BitVec 4) (d : Word) : (s.memWrite a be d).defects = s.defects := rfl
@[simp] theorem State.memWrite_seq (s : State) (a : Nat) (be : BitVec 4) (d : Word) : (s.memWrite a be d).seq = s.seq := rfl
@[simp] theorem State.memWrite_lot (s : State) (a : Nat) (be : BitVec 4) (d : Word) : (s.memWrite a be d).lot = s.lot := rfl
@[simp] theorem State.memWrite_report (s : State) (a : Nat) (be : BitVec 4) (d : Word) : (s.memWrite a be d).report = s.report := rfl

@[simp] theorem State.clockTo_pending (s : State) (t : Nat) : (s.clockTo t).pending = s.pending := rfl
@[simp] theorem State.clockTo_now (s : State) (t : Nat) : (s.clockTo t).now = max s.now t := rfl
@[simp] theorem State.clockTo_mem (s : State) (t : Nat) : (s.clockTo t).mem = s.mem := rfl
@[simp] theorem State.clockTo_inReset (s : State) (t : Nat) : (s.clockTo t).inReset = s.inReset := rfl
@[simp] theorem State.clockTo_planSel (s : State) (t : Nat) : (s.clockTo t).planSel = s.planSel := rfl
@[simp] theorem State.clockTo_hReady (s : State) (t : Nat) : (s.clockTo t).hReady = s.hReady := rfl
@[simp] theorem State.clockTo_hData (s : State) (t : Nat) : (s.clockTo t).hData = s.hData := rfl
@[simp] theorem State.clockTo_mAccess (s : State) (t : Nat) : (s.clockTo t).mAccess = s.mAccess := rfl
@[simp] theorem State.clockTo_hostBusy (s : State) (t : Nat) : (s.clockTo t).hostBusy = s.hostBusy := rfl
@[simp] theorem State.clockTo_hostMore (s : State) (t : Nat) : (s.clockTo t).hostMore = s.hostMore := rfl
@[simp] theorem State.clockTo_hostWaits (s : State) (t : Nat) : (s.clockTo t).hostWaits = s.hostWaits := rfl
@[simp] theorem State.clockTo_map (s : State) (t : Nat) : (s.clockTo t).map = s.map := rfl
@[simp] theorem State.clockTo_plan (s : State) (t : Nat) : (s.clockTo t).plan = s.plan := rfl
@[simp] theorem State.clockTo_queue (s : State) (t : Nat) : (s.clockTo t).queue = s.queue := rfl
@[simp] theorem State.clockTo_waiting (s : State) (t : Nat) : (s.clockTo t).waiting = s.waiting := rfl
@[simp] theorem State.clockTo_made (s : State) (t : Nat) : (s.clockTo t).made = s.made := rfl
@[simp] theorem State.clockTo_sequel (s : State) (t : Nat) : (s.clockTo t).sequel = s.sequel := rfl
@[simp] theorem State.clockTo_named (s : State) (t : Nat) : (s.clockTo t).named = s.named := rfl
@[simp] theorem State.clockTo_openCount (s : State) (t : Nat) : (s.clockTo t).openCount = s.openCount := rfl
@[simp] theorem State.clockTo_planU (s : State) (t : Nat) : (s.clockTo t).planU = s.planU := rfl
@[simp] theorem State.clockTo_hand (s : State) (t : Nat) : (s.clockTo t).hand = s.hand := rfl
@[simp] theorem State.clockTo_motion (s : State) (t : Nat) : (s.clockTo t).motion = s.motion := rfl
@[simp] theorem State.clockTo_xform (s : State) (t : Nat) : (s.clockTo t).xform = s.xform := rfl
@[simp] theorem State.clockTo_focus (s : State) (t : Nat) : (s.clockTo t).focus = s.focus := rfl
@[simp] theorem State.clockTo_defects (s : State) (t : Nat) : (s.clockTo t).defects = s.defects := rfl
@[simp] theorem State.clockTo_seq (s : State) (t : Nat) : (s.clockTo t).seq = s.seq := rfl
@[simp] theorem State.clockTo_lot (s : State) (t : Nat) : (s.clockTo t).lot = s.lot := rfl
@[simp] theorem State.clockTo_report (s : State) (t : Nat) : (s.clockTo t).report = s.report := rfl

@[simp] theorem State.finishWord_pending (s : State) (more : Bool) : (s.finishWord more).pending = s.pending := rfl
@[simp] theorem State.finishWord_now (s : State) (more : Bool) : (s.finishWord more).now = s.now := rfl
@[simp] theorem State.finishWord_mem (s : State) (more : Bool) : (s.finishWord more).mem = s.mem := rfl
@[simp] theorem State.finishWord_inReset (s : State) (more : Bool) : (s.finishWord more).inReset = s.inReset := rfl
@[simp] theorem State.finishWord_planSel (s : State) (more : Bool) : (s.finishWord more).planSel = s.planSel := rfl
@[simp] theorem State.finishWord_hReady (s : State) (more : Bool) : (s.finishWord more).hReady = true := rfl
@[simp] theorem State.finishWord_hData (s : State) (more : Bool) : (s.finishWord more).hData = s.hData := rfl
@[simp] theorem State.finishWord_mAccess (s : State) (more : Bool) : (s.finishWord more).mAccess = s.mAccess := rfl
@[simp] theorem State.finishWord_hostBusy (s : State) (more : Bool) : (s.finishWord more).hostBusy = s.hostBusy := rfl
@[simp] theorem State.finishWord_hostMore (s : State) (more : Bool) : (s.finishWord more).hostMore = more := rfl
@[simp] theorem State.finishWord_hostWaits (s : State) (more : Bool) : (s.finishWord more).hostWaits = none := rfl
@[simp] theorem State.finishWord_map (s : State) (more : Bool) : (s.finishWord more).map = if more then s.map else s.plan := rfl
@[simp] theorem State.finishWord_plan (s : State) (more : Bool) : (s.finishWord more).plan = s.plan := rfl
@[simp] theorem State.finishWord_queue (s : State) (more : Bool) : (s.finishWord more).queue = s.queue := rfl
@[simp] theorem State.finishWord_waiting (s : State) (more : Bool) : (s.finishWord more).waiting = s.waiting := rfl
@[simp] theorem State.finishWord_made (s : State) (more : Bool) : (s.finishWord more).made = s.made := rfl
@[simp] theorem State.finishWord_sequel (s : State) (more : Bool) : (s.finishWord more).sequel = s.sequel := rfl
@[simp] theorem State.finishWord_named (s : State) (more : Bool) : (s.finishWord more).named = s.named := rfl
@[simp] theorem State.finishWord_openCount (s : State) (more : Bool) : (s.finishWord more).openCount = s.openCount := rfl
@[simp] theorem State.finishWord_planU (s : State) (more : Bool) : (s.finishWord more).planU = s.planU := rfl
@[simp] theorem State.finishWord_hand (s : State) (more : Bool) : (s.finishWord more).hand = s.hand := rfl
@[simp] theorem State.finishWord_motion (s : State) (more : Bool) : (s.finishWord more).motion = s.motion := rfl
@[simp] theorem State.finishWord_xform (s : State) (more : Bool) : (s.finishWord more).xform = s.xform := rfl
@[simp] theorem State.finishWord_focus (s : State) (more : Bool) : (s.finishWord more).focus = s.focus := rfl
@[simp] theorem State.finishWord_defects (s : State) (more : Bool) : (s.finishWord more).defects = s.defects := rfl
@[simp] theorem State.finishWord_seq (s : State) (more : Bool) : (s.finishWord more).seq = s.seq := rfl
@[simp] theorem State.finishWord_lot (s : State) (more : Bool) : (s.finishWord more).lot = s.lot := rfl
@[simp] theorem State.finishWord_report (s : State) (more : Bool) : (s.finishWord more).report = s.report := rfl

@[simp] theorem State.turnAway_pending (s : State) (w : Option HostWait) : (s.turnAway w).pending = s.pending := rfl
@[simp] theorem State.turnAway_now (s : State) (w : Option HostWait) : (s.turnAway w).now = s.now := rfl
@[simp] theorem State.turnAway_mem (s : State) (w : Option HostWait) : (s.turnAway w).mem = s.mem := rfl
@[simp] theorem State.turnAway_inReset (s : State) (w : Option HostWait) : (s.turnAway w).inReset = s.inReset := rfl
@[simp] theorem State.turnAway_planSel (s : State) (w : Option HostWait) : (s.turnAway w).planSel = s.planSel := rfl
@[simp] theorem State.turnAway_hReady (s : State) (w : Option HostWait) : (s.turnAway w).hReady = false := rfl
@[simp] theorem State.turnAway_hData (s : State) (w : Option HostWait) : (s.turnAway w).hData = s.hData := rfl
@[simp] theorem State.turnAway_mAccess (s : State) (w : Option HostWait) : (s.turnAway w).mAccess = s.mAccess := rfl
@[simp] theorem State.turnAway_hostBusy (s : State) (w : Option HostWait) : (s.turnAway w).hostBusy = s.hostBusy := rfl
@[simp] theorem State.turnAway_hostMore (s : State) (w : Option HostWait) : (s.turnAway w).hostMore = s.hostMore := rfl
@[simp] theorem State.turnAway_hostWaits (s : State) (w : Option HostWait) : (s.turnAway w).hostWaits = w := rfl
@[simp] theorem State.turnAway_map (s : State) (w : Option HostWait) : (s.turnAway w).map = s.map := rfl
@[simp] theorem State.turnAway_plan (s : State) (w : Option HostWait) : (s.turnAway w).plan = s.plan := rfl
@[simp] theorem State.turnAway_queue (s : State) (w : Option HostWait) : (s.turnAway w).queue = s.queue := rfl
@[simp] theorem State.turnAway_waiting (s : State) (w : Option HostWait) : (s.turnAway w).waiting = s.waiting := rfl
@[simp] theorem State.turnAway_made (s : State) (w : Option HostWait) : (s.turnAway w).made = s.made := rfl
@[simp] theorem State.turnAway_sequel (s : State) (w : Option HostWait) : (s.turnAway w).sequel = s.sequel := rfl
@[simp] theorem State.turnAway_named (s : State) (w : Option HostWait) : (s.turnAway w).named = s.named := rfl
@[simp] theorem State.turnAway_openCount (s : State) (w : Option HostWait) : (s.turnAway w).openCount = s.openCount := rfl
@[simp] theorem State.turnAway_planU (s : State) (w : Option HostWait) : (s.turnAway w).planU = s.planU := rfl
@[simp] theorem State.turnAway_hand (s : State) (w : Option HostWait) : (s.turnAway w).hand = s.hand := rfl
@[simp] theorem State.turnAway_motion (s : State) (w : Option HostWait) : (s.turnAway w).motion = s.motion := rfl
@[simp] theorem State.turnAway_xform (s : State) (w : Option HostWait) : (s.turnAway w).xform = s.xform := rfl
@[simp] theorem State.turnAway_focus (s : State) (w : Option HostWait) : (s.turnAway w).focus = s.focus := rfl
@[simp] theorem State.turnAway_defects (s : State) (w : Option HostWait) : (s.turnAway w).defects = s.defects := rfl
@[simp] theorem State.turnAway_seq (s : State) (w : Option HostWait) : (s.turnAway w).seq = s.seq := rfl
@[simp] theorem State.turnAway_lot (s : State) (w : Option HostWait) : (s.turnAway w).lot = s.lot := rfl
@[simp] theorem State.turnAway_report (s : State) (w : Option HostWait) : (s.turnAway w).report = s.report := rfl

end Sys2Proof.Machine
end

