-- ==== Sys2Proof/Laws/Tables.lean ====
section
/-! SUPPORT. The laws of the sparse tables. -/

namespace Sys2Proof.Machine

/-- An entry that has been set reads as it was set. -/
@[simp] theorem Table.get_set_same {α : Type} (d : α) (t : Table α) (k : Nat) (v : α) :
    (t.set k v).get d k = v := by
  induction t with
  | nil => simp [Table.set, Table.get]
  | cons e t ih =>
    obtain ⟨j, w⟩ := e
    simp only [Table.set]
    split
    · simp [Table.get]
    · split
      · simp [Table.get]
      · rename_i h1 h2
        simp [Table.get, h1, h2, ih]

/-- A set leaves every other entry alone. -/
theorem Table.get_set_other {α : Type} (d : α) (t : Table α) {k j : Nat} (v : α) (h : j ≠ k) :
    (t.set k v).get d j = t.get d j := by
  induction t with
  | nil => simp [Table.set, Table.get, h]
  | cons e t ih =>
    obtain ⟨i, w⟩ := e
    simp only [Table.set]
    split
    · simp only [Table.get]
      split
      · omega
      · split
        · rw [if_neg (by omega), if_pos (by omega)]
        · rfl
    · split
      · subst_vars
        simp [Table.get, h]
      · simp only [Table.get, ih]

/-- What a table holds after a set. -/
theorem Table.get_set {α : Type} (d : α) (t : Table α) (k j : Nat) (v : α) :
    (t.set k v).get d j = if j = k then v else t.get d j := by
  split
  · subst_vars; simp
  · exact Table.get_set_other d t v ‹_›

/-- A change of every listed entry reads as the change of what was read, where the default stays the default. -/
theorem Table.get_mapVals {α : Type} (d : α) (f : α → α) (hd : f d = d) (t : Table α) (k : Nat) :
    (t.mapVals f).get d k = f (t.get d k) := by
  induction t with
  | nil => simp [Table.mapVals, Table.get, hd]
  | cons e t ih =>
    obtain ⟨j, w⟩ := e
    simp only [Table.mapVals, List.map_cons, Table.get] at ih ⊢
    split
    · rfl
    · split
      · exact hd.symm
      · exact ih

/-! ### The blocks' tables -/

theorem State.wafer_setWafer (s : State) (w : Nat) (v : Wafer) (j : Nat) :
    (s.setWafer w v).wafer j = if j = w then v else s.wafer j := Table.get_set _ _ _ _ _

theorem State.posn_setPosn (s : State) (p : Nat) (v : Position) (j : Nat) :
    (s.setPosn p v).posn j = if j = p then v else s.posn j := Table.get_set _ _ _ _ _

theorem State.slot_setSlot (s : State) (k : Nat) (v : Slot) (j : Nat) :
    (s.setSlot k v).slot j = if j = k then v else s.slot j := Table.get_set _ _ _ _ _

theorem State.node_setNode (s : State) (n : Nat) (v : Node) (j : Nat) :
    (s.setNode n v).node j = if j = n then v else s.node j := Table.get_set _ _ _ _ _

theorem State.defect_setDefect (s : State) (d : Nat) (v : Defect) (j : Nat) :
    (s.setDefect d v).defect j = if j = d then v else s.defect j := Table.get_set _ _ _ _ _

theorem State.attr_setAttr (s : State) (i : Nat) (v : Attribute) (j : Nat) :
    (s.setAttr i v).attr j = if j = i then v else s.attr j := Table.get_set _ _ _ _ _

@[simp] theorem State.wafer_setPosn (s : State) (p : Nat) (v : Position) (j : Nat) :
    (s.setPosn p v).wafer j = s.wafer j := rfl
@[simp] theorem State.wafer_setSlot (s : State) (k : Nat) (v : Slot) (j : Nat) :
    (s.setSlot k v).wafer j = s.wafer j := rfl
@[simp] theorem State.posn_setWafer (s : State) (w : Nat) (v : Wafer) (j : Nat) :
    (s.setWafer w v).posn j = s.posn j := rfl
@[simp] theorem State.posn_setSlot (s : State) (k : Nat) (v : Slot) (j : Nat) :
    (s.setSlot k v).posn j = s.posn j := rfl
@[simp] theorem State.slot_setWafer (s : State) (w : Nat) (v : Wafer) (j : Nat) :
    (s.setWafer w v).slot j = s.slot j := rfl
@[simp] theorem State.slot_setPosn (s : State) (p : Nat) (v : Position) (j : Nat) :
    (s.setPosn p v).slot j = s.slot j := rfl

end Sys2Proof.Machine
end

