-- ==== Sys2Proof/Laws/Memory.lean ====
section
/-! SUPPORT. The laws of memory: every operation keeps the canonical form; a read after a write gives what was written
and leaves every other byte alone. -/

namespace Sys2Proof.Machine

open Config (unwrittenByte)

/-- A memory that lies above an address lies above every lower one. -/
theorem Memory.wfAbove_weaken {m : List Host.Cell} {l k : Nat} (h : Memory.wfAbove (some l) m = true) (hk : k ≤ l) :
    Memory.wfAbove (some k) m = true := by
  cases m with
  | nil => rfl
  | cons e m =>
    obtain ⟨a, v⟩ := e
    simp only [Memory.wfAbove, Bool.and_eq_true, decide_eq_true_eq] at h ⊢
    exact ⟨⟨by omega, h.1.2⟩, h.2⟩

theorem Memory.wfAbove_none {m : List Host.Cell} {l : Nat} (h : Memory.wfAbove (some l) m = true) :
    Memory.wfAbove none m = true := by
  cases m with
  | nil => rfl
  | cons e m =>
    obtain ⟨a, v⟩ := e
    simp only [Memory.wfAbove, Bool.and_eq_true] at h ⊢
    exact ⟨⟨trivial, h.1.2⟩, h.2⟩

/-- An address at or below a memory is not listed in it. -/
theorem readByte_below {m : List Host.Cell} {l a : Nat} (h : Memory.wfAbove (some l) m = true) (ha : a ≤ l) :
    readByte m a = unwrittenByte := by
  cases m with
  | nil => rfl
  | cons e m =>
    obtain ⟨b, v⟩ := e
    simp only [Memory.wfAbove, Bool.and_eq_true, decide_eq_true_eq] at h
    simp only [readByte]
    rw [if_neg (by omega), if_pos (by omega)]

/-- A write above a bound keeps a memory that lies above that bound canonical. -/
theorem writeByte_wfAbove {m : List Host.Cell} {l a : Nat} {v : Byte} (h : Memory.wfAbove (some l) m = true)
    (ha : l < a) : Memory.wfAbove (some l) (writeByte m a v) = true := by
  induction m generalizing l with
  | nil =>
    simp only [writeByte]
    split
    · rfl
    · simp [Memory.wfAbove, *]
  | cons e m ih =>
    obtain ⟨b, w⟩ := e
    have h' := h
    simp only [Memory.wfAbove, Bool.and_eq_true, decide_eq_true_eq] at h
    simp only [writeByte]
    split
    · split
      · exact h'
      · simp only [Memory.wfAbove, Bool.and_eq_true, decide_eq_true_eq]
        exact ⟨⟨ha, by simpa using ‹¬v = _›⟩, ⟨by omega, h.1.2⟩, h.2⟩
    · split
      · split
        · exact Memory.wfAbove_weaken h.2 (by omega)
        · simp only [Memory.wfAbove, Bool.and_eq_true, decide_eq_true_eq]
          subst_vars
          exact ⟨⟨ha, by simpa using ‹¬v = _›⟩, h.2⟩
      · simp only [Memory.wfAbove, Bool.and_eq_true, decide_eq_true_eq]
        exact ⟨h.1, ih h.2 (by omega)⟩

/-- A write keeps memory in its canonical form. -/
theorem writeByte_wf {m : List Host.Cell} {a : Nat} {v : Byte} (h : Memory.wf m = true) :
    Memory.wf (writeByte m a v) = true := by
  unfold Memory.wf at h ⊢
  cases m with
  | nil =>
    simp only [writeByte]
    split
    · rfl
    · simp [Memory.wfAbove, *]
  | cons e m =>
    obtain ⟨b, w⟩ := e
    have h' := h
    simp only [Memory.wfAbove, Bool.and_eq_true] at h
    simp only [writeByte]
    split
    · split
      · exact h'
      · simp only [Memory.wfAbove, Bool.and_eq_true, decide_eq_true_eq]
        exact ⟨⟨trivial, by simpa using ‹¬v = _›⟩, ⟨by omega, h.1.2⟩, h.2⟩
    · split
      · split
        · exact Memory.wfAbove_none h.2
        · simp only [Memory.wfAbove, Bool.and_eq_true]
          subst_vars
          exact ⟨⟨trivial, by simpa using ‹¬v = _›⟩, h.2⟩
      · simp only [Memory.wfAbove, Bool.and_eq_true]
        exact ⟨⟨trivial, h.1.2⟩, writeByte_wfAbove h.2 (by omega)⟩

/-- What a byte reads as after a write of a byte, in a memory that lies above a bound. -/
theorem readByte_writeByte_above {m : List Host.Cell} {l a : Nat} {v : Byte}
    (h : Memory.wfAbove (some l) m = true) (b : Nat) :
    readByte (writeByte m a v) b = if b = a then v else readByte m b := by
  induction m generalizing l with
  | nil =>
    simp only [writeByte]
    split
    · simp only [readByte]; split <;> simp_all
    · simp only [readByte]; split <;> simp
  | cons e m ih =>
    obtain ⟨c, w⟩ := e
    simp only [Memory.wfAbove, Bool.and_eq_true, decide_eq_true_eq] at h
    simp only [writeByte]
    split
    · split
      · split
        · subst_vars; simp only [readByte]; rw [if_neg (by omega), if_pos (by omega)]
        · rfl
      · simp only [readByte]
        split
        · rfl
        · split
          · rw [if_neg (by omega), if_pos (by omega)]
          · rfl
    · split
      · subst_vars
        split
        · split
          · subst_vars; exact readByte_below h.2 (by omega)
          · simp only [readByte]
            rw [if_neg ‹_›]
            split
            · exact readByte_below h.2 (by omega)
            · rfl
        · simp only [readByte]
          split <;> rfl
      · simp only [readByte, ih h.2]
        split
        · split
          · omega
          · rfl
        · split
          · split
            · omega
            · rfl
          · rfl

/-- What a byte reads as after a write of a byte. -/
theorem readByte_writeByte {m : List Host.Cell} {a : Nat} {v : Byte} (h : Memory.wf m = true) (b : Nat) :
    readByte (writeByte m a v) b = if b = a then v else readByte m b := by
  cases m with
  | nil => exact readByte_writeByte_above (l := 0) rfl b
  | cons e m =>
    obtain ⟨c, w⟩ := e
    unfold Memory.wf at h
    simp only [Memory.wfAbove, Bool.and_eq_true] at h
    simp only [writeByte]
    split
    · split
      · split
        · subst_vars; simp only [readByte]; rw [if_neg (by omega), if_pos (by omega)]
        · rfl
      · simp only [readByte]
        split
        · rfl
        · split
          · rw [if_neg (by omega), if_pos (by omega)]
          · rfl
    · split
      · subst_vars
        split
        · split
          · subst_vars; exact readByte_below h.2 (by omega)
          · simp only [readByte]
            rw [if_neg ‹_›]
            split
            · exact readByte_below h.2 (by omega)
            · rfl
        · simp only [readByte]
          split <;> rfl
      · simp only [readByte, readByte_writeByte_above h.2]
        split
        · split
          · omega
          · rfl
        · split
          · split
            · omega
            · rfl
          · rfl

/-! ### Words -/

theorem writeLane_wf {be : BitVec 4} {d : Word} {a i : Nat} {m : List Host.Cell} (h : Memory.wf m = true) :
    Memory.wf (writeLane be d a i m) = true := by
  unfold writeLane
  split
  · exact writeByte_wf h
  · exact h

theorem readByte_writeLane {be : BitVec 4} {d : Word} {a i : Nat} {m : List Host.Cell} (h : Memory.wf m = true)
    (b : Nat) : readByte (writeLane be d a i m) b
      = if b = a + i ∧ be.getLsbD i = true then lane d i else readByte m b := by
  unfold writeLane
  split <;> simp_all [readByte_writeByte h]

/-- A word write keeps memory in its canonical form. -/
theorem writeWordAt_wf {m : List Host.Cell} {a : Nat} {be : BitVec 4} {d : Word} (h : Memory.wf m = true) :
    Memory.wf (writeWordAt m a be d) = true :=
  writeLane_wf (writeLane_wf (writeLane_wf (writeLane_wf h)))

/-- What a byte reads as after a word write under byte enables: the data in an enabled lane, otherwise as before. -/
theorem readByte_writeWordAt {m : List Host.Cell} {a : Nat} {be : BitVec 4} {d : Word} (h : Memory.wf m = true)
    (b : Nat) : readByte (writeWordAt m a be d) b
      = if a ≤ b ∧ b < a + 4 ∧ be.getLsbD (b - a) = true then lane d (b - a) else readByte m b := by
  unfold writeWordAt
  rw [readByte_writeLane (writeLane_wf (writeLane_wf (writeLane_wf h))),
    readByte_writeLane (writeLane_wf (writeLane_wf h)), readByte_writeLane (writeLane_wf h), readByte_writeLane h]
  by_cases h3 : b = a + 3
  · subst h3
    have : a + 3 - a = 3 := by omega
    simp [this]
  by_cases h2 : b = a + 2
  · subst h2
    have : a + 2 - a = 2 := by omega
    simp [this]
  by_cases h1 : b = a + 1
  · subst h1
    have : a + 1 - a = 1 := by omega
    simp [this]
  by_cases h0 : b = a
  · subst h0
    simp
  · rw [if_neg (by omega), if_neg (by omega), if_neg (by omega), if_neg (by omega), if_neg (by omega)]

/-- A word write stores nowhere but in its four bytes. -/
theorem readByte_writeWordAt_outside {m : List Host.Cell} {a : Nat} {be : BitVec 4} {d : Word}
    (h : Memory.wf m = true) {b : Nat} (hb : b < a ∨ a + 4 ≤ b) :
    readByte (writeWordAt m a be d) b = readByte m b := by
  rw [readByte_writeWordAt h, if_neg (by omega)]

/-- The four lanes of a word make up the word. -/
theorem ofLanes_lane (d : Word) : ofLanes (lane d 0) (lane d 1) (lane d 2) (lane d 3) = d := by
  apply BitVec.eq_of_getLsbD_eq
  intro i hi
  simp only [ofLanes, lane, BitVec.getLsbD_append, BitVec.getLsbD_extractLsb']
  split
  · have : 8 * 0 + i = i := by omega
    simp [*]
  · split
    · have : 8 * 1 + (i - 8) = i := by omega
      simp [*]
    · split
      · have : 8 * 2 + (i - 8 - 8) = i := by omega
        simp [*]
      · have : 8 * 3 + (i - 8 - 8 - 8) = i := by omega
        have : i - 8 - 8 - 8 < 8 := by omega
        simp [*]

/-- A word written in full reads back as it was written. -/
theorem readWordAt_writeWordAt {m : List Host.Cell} {a : Nat} {d : Word} (h : Memory.wf m = true) :
    readWordAt (writeWordAt m a 15 d) a = d := by
  have e : ∀ i, i < 4 → readByte (writeWordAt m a 15 d) (a + i) = lane d i := by
    intro i hi
    rw [readByte_writeWordAt h, if_pos]
    · congr 1; omega
    · refine ⟨by omega, by omega, ?_⟩
      have : a + i - a = i := by omega
      rw [this]
      interval_cases i <;> rfl
  unfold readWordAt
  rw [e 1 (by omega), e 2 (by omega), e 3 (by omega)]
  have := e 0 (by omega)
  simp only [Nat.add_zero] at this
  rw [this]
  exact ofLanes_lane d

/-- A burst keeps memory in its canonical form. -/
theorem writeWords_wf {ws : List (BitVec 4 × Word)} {m : List Host.Cell} {a : Nat} (h : Memory.wf m = true) :
    Memory.wf (writeWords m a ws) = true := by
  induction ws generalizing m a with
  | nil => exact h
  | cons e ws ih => obtain ⟨be, d⟩ := e; exact ih (writeWordAt_wf h)

end Sys2Proof.Machine
end

