-- ==== Sys2Proof/Laws/Queue.lean ====
section
/-! SUPPORT. The laws of the write-back queue: what a value that joins it replaces or adds, and that a step that fits
keeps it lawful (R16, R17). -/

namespace Sys2Proof.Machine

/-- An address has an entry after a value joins if it had one or is the value's. -/
theorem hasEntry_putEntry (q : List (Nat × Word)) (e : Nat × Word) (a : Nat) :
    hasEntry (putEntry q e) a = (hasEntry q a || e.1 == a) := by
  induction q with
  | nil => simp [putEntry, hasEntry]
  | cons f q ih =>
    simp only [hasEntry] at ih
    simp only [putEntry]
    split
    · simp only [hasEntry, List.any_cons, *]
      cases e.1 == a <;> simp
    · simp only [hasEntry, List.any_cons, ih, Bool.or_assoc]

/-- The queue grows by one for an address without an entry. -/
theorem length_putEntry (q : List (Nat × Word)) (e : Nat × Word) :
    (putEntry q e).length = q.length + if hasEntry q e.1 = true then 0 else 1 := by
  induction q with
  | nil => simp [putEntry, hasEntry]
  | cons f q ih =>
    simp only [putEntry]
    split
    · simp [hasEntry, *]
    · have : (f.1 == e.1) = false := by simpa using ‹¬f.1 = e.1›
      have hc : hasEntry (f :: q) e.1 = hasEntry q e.1 := by simp [hasEntry, this]
      rw [List.length_cons, List.length_cons, ih, hc]
      omega

/-- A value that joins leaves the addresses distinct. -/
theorem distinctAddresses_putEntry (q : List (Nat × Word)) (e : Nat × Word) (h : distinctAddresses q = true) :
    distinctAddresses (putEntry q e) = true := by
  induction q with
  | nil => simp [putEntry, distinctAddresses, hasEntry]
  | cons f q ih =>
    simp only [distinctAddresses, Bool.and_eq_true, Bool.not_eq_true'] at h
    simp only [putEntry]
    split
    · simp only [distinctAddresses, Bool.and_eq_true, Bool.not_eq_true']
      exact ⟨by rw [← ‹f.1 = e.1›]; exact h.1, h.2⟩
    · simp only [distinctAddresses, Bool.and_eq_true, Bool.not_eq_true']
      refine ⟨?_, ih h.2⟩
      rw [hasEntry_putEntry, h.1]
      simpa using fun c => ‹¬f.1 = e.1› c.symm

theorem distinctAddresses_putEntries (q : List (Nat × Word)) (es : List (Nat × Word))
    (h : distinctAddresses q = true) : distinctAddresses (putEntries q es) = true := by
  induction es generalizing q with
  | nil => exact h
  | cons e es ih => exact ih _ (distinctAddresses_putEntry q e h)

/-- An address has an entry after values join if it had one or is one of theirs. -/
theorem hasEntry_putEntries (q : List (Nat × Word)) (es : List (Nat × Word)) (a : Nat) :
    hasEntry (putEntries q es) a = (hasEntry q a || hasEntry es a) := by
  induction es generalizing q with
  | nil => simp [putEntries, hasEntry]
  | cons e es ih =>
    have := ih (putEntry q e)
    simp only [putEntries, List.foldl_cons] at this ⊢
    rw [this, hasEntry_putEntry]
    simp only [hasEntry, List.any_cons, Bool.or_assoc]

/-- More entries queued never makes a step need more. -/
theorem entriesNeeded_putEntry_le (q : List (Nat × Word)) (e : Nat × Word) (es : List (Nat × Word)) :
    entriesNeeded (putEntry q e) es ≤ entriesNeeded q es := by
  unfold entriesNeeded
  simp only [hasEntry_putEntry]
  induction es with
  | nil => simp
  | cons f es ih =>
    simp only [List.filter_cons]
    cases h1 : hasEntry q f.1 <;> cases h2 : e.1 == f.1 <;>
      simp only [Bool.or_false, Bool.or_true, Bool.not_false, Bool.not_true, if_true, List.length_cons,
        Bool.false_eq_true, if_false] <;> omega

/-- The queue after a step has no more entries than the queue and the entries that the step needs. -/
theorem length_putEntries_le (q : List (Nat × Word)) (es : List (Nat × Word)) :
    (putEntries q es).length ≤ q.length + entriesNeeded q es := by
  induction es generalizing q with
  | nil => simp [putEntries, entriesNeeded]
  | cons e es ih =>
    have h1 := ih (putEntry q e)
    have h2 := entriesNeeded_putEntry_le q e es
    have h3 := length_putEntry q e
    simp only [putEntries, List.foldl_cons] at h1 ⊢
    simp only [entriesNeeded, List.filter_cons] at h1 h2 ⊢
    cases h : hasEntry q e.1 <;> simp [h] at h3 ⊢ <;> omega

theorem entriesNeeded_le (q : List (Nat × Word)) (es : List (Nat × Word)) : entriesNeeded q es ≤ es.length :=
  List.length_filter_le _ _

/-- A step fits where the queue has room for all its words. -/
theorem fits_of_length {q es : List (Nat × Word)} (h : q.length + es.length ≤ 16) : fits q es = true := by
  have := entriesNeeded_le q es
  exact decide_eq_true (show q.length + entriesNeeded q es ≤ 16 by omega)

theorem length_putEntries_le_add (q : List (Nat × Word)) (es : List (Nat × Word)) :
    (putEntries q es).length ≤ q.length + es.length :=
  (length_putEntries_le q es).trans (Nat.add_le_add_left (entriesNeeded_le q es) _)

/-- A step that fits keeps the queue lawful (R16, R17). -/
theorem queueLawful_putEntries {q es : List (Nat × Word)} (h : queueLawful q = true) (hf : fits q es = true) :
    queueLawful (putEntries q es) = true := by
  simp only [queueLawful, Bool.and_eq_true, decide_eq_true_eq] at h ⊢
  exact ⟨(length_putEntries_le q es).trans (of_decide_eq_true hf), distinctAddresses_putEntries q es h.2⟩

theorem putEntries_append (q es fs : List (Nat × Word)) :
    putEntries q (es ++ fs) = putEntries (putEntries q es) fs := List.foldl_append

@[simp] theorem putEntries_nil (q : List (Nat × Word)) : putEntries q [] = q := rfl

/-- The value queued for the address of a value that has just joined is that value. -/
theorem entryFor_putEntry_same (q : List (Nat × Word)) (e : Nat × Word) : entryFor (putEntry q e) e.1 = some e.2 := by
  induction q with
  | nil => simp [putEntry, entryFor]
  | cons f q ih =>
    simp only [putEntry]
    split
    · simp [entryFor]
    · have : (f.1 == e.1) = false := by simpa using ‹¬f.1 = e.1›
      simp only [entryFor, List.find?_cons, this] at ih ⊢
      exact ih

/-- A value that joins leaves the entries for other addresses as they are. -/
theorem entryFor_putEntry_other (q : List (Nat × Word)) (e : Nat × Word) {a : Nat} (h : e.1 ≠ a) :
    entryFor (putEntry q e) a = entryFor q a := by
  have he : (e.1 == a) = false := by simpa using h
  induction q with
  | nil => simp [putEntry, entryFor, he]
  | cons f q ih =>
    simp only [putEntry]
    split
    · have : (f.1 == a) = false := by rw [‹f.1 = e.1›]; exact he
      simp [entryFor, he, this]
    · simp only [entryFor, List.find?_cons] at ih ⊢
      split
      · rfl
      · exact ih

end Sys2Proof.Machine
end

