-- ==== Sys2Proof/Laws/Kept.lean ====
section
/-! SUPPORT. What no operation of a block touches: memory, the write-back queue, the queue of commands, the reset line,
the strap, the clock, the plan in force, the host port, the memory port, and the motion unit's permission. One lemma per
operation. -/

namespace Sys2Proof.Machine

/-- The part of the state that no operation of a block touches, but for the few that the lemmas here name. -/
structure Kept where
  mem       : List Host.Cell
  queue     : List (Nat × Word)
  pending   : List Instr
  inReset   : Bool
  planSel   : BitVec 2
  now       : Nat
  plan      : Option Plan
  hData     : List Word
  mAccess   : Option MemAccess
  hReady    : Bool
  hostBusy  : Bool
  hostMore  : Bool
  hostWaits : Option HostWait
  map       : Option Plan
  enable    : Bool
  interlock : Bool
  awaiting  : Bool

/-- What is kept of a state. -/
def State.kept (s : State) : Kept :=
  { mem := s.mem, queue := s.queue, pending := s.pending, inReset := s.inReset, planSel := s.planSel, now := s.now,
    plan := s.plan, hData := s.hData, mAccess := s.mAccess, hReady := s.hReady, hostBusy := s.hostBusy,
    hostMore := s.hostMore, hostWaits := s.hostWaits, map := s.map, enable := s.motion.enable, interlock := s.motion.interlock,
    awaiting := s.motion.awaiting }

@[simp] theorem State.kept_ite (c : Prop) [Decidable c] (a b : State) :
    (if c then a else b).kept = if c then a.kept else b.kept := by split <;> rfl

@[simp] theorem State.onPlan_kept (s : State) (f : PlanUnit → PlanUnit) : (s.onPlan f).kept = s.kept := (rfl)
@[simp] theorem State.onHand_kept (s : State) (f : Handling → Handling) : (s.onHand f).kept = s.kept := (rfl)
@[simp] theorem State.onXform_kept (s : State) (f : Transform → Transform) : (s.onXform f).kept = s.kept := (rfl)
@[simp] theorem State.onFocus_kept (s : State) (f : Focus → Focus) : (s.onFocus f).kept = s.kept := (rfl)
@[simp] theorem State.onSeq_kept (s : State) (f : Sequencer → Sequencer) : (s.onSeq f).kept = s.kept := (rfl)
@[simp] theorem State.setWafer_kept (s : State) (w : Nat) (v : Wafer) : (s.setWafer w v).kept = s.kept := (rfl)
@[simp] theorem State.setPosn_kept (s : State) (p : Nat) (v : Position) : (s.setPosn p v).kept = s.kept := (rfl)
@[simp] theorem State.setSlot_kept (s : State) (k : Nat) (v : Slot) : (s.setSlot k v).kept = s.kept := (rfl)
@[simp] theorem State.setNode_kept (s : State) (n : Nat) (v : Node) : (s.setNode n v).kept = s.kept := (rfl)
@[simp] theorem State.setDefect_kept (s : State) (d : Nat) (v : Defect) : (s.setDefect d v).kept = s.kept := (rfl)
@[simp] theorem State.setAttr_kept (s : State) (i : Nat) (v : Attribute) : (s.setAttr i v).kept = s.kept := (rfl)
@[simp] theorem State.setDebounce_kept (s : State) (k : Nat) (v : Debounce) : (s.setDebounce k v).kept = s.kept := (rfl)
@[simp] theorem State.event_kept (s : State) (e : Event) : (s.event e).kept = s.kept := (rfl)
@[simp] theorem State.emit_kept (s : State) (op : StepOp) : (s.emit op).kept = s.kept := (rfl)
@[simp] theorem State.emits_kept (s : State) (ops : Task) : (s.emits ops).kept = s.kept := (rfl)
@[simp] theorem State.emitEach_kept (s : State) (ops : List StepOp) : (s.emitEach ops).kept = s.kept := (rfl)
@[simp] theorem State.goOn_kept (s : State) (ops : Task) : (s.goOn ops).kept = s.kept := (rfl)
@[simp] theorem State.name_kept (s : State) (ws : List WordRef) : (s.name ws).kept = s.kept := (rfl)
@[simp] theorem State.changeSeq_kept (s : State) (f : Sequencer → Sequencer) : (s.changeSeq f).kept = s.kept := (rfl)

/-- A change made at once keeps what it keeps: its step is only made. -/
@[simp] theorem State.change_kept (s : State) (ws : List WordRef) (f : State → State) :
    (s.change ws f).kept = (f s).kept := (rfl)

/-- A change of the motion unit can change only its permission. -/
@[simp] theorem State.onMotion_kept (s : State) (f : Motion → Motion) :
    (s.onMotion f).kept = { s.kept with
      enable := (f s.motion).enable, interlock := (f s.motion).interlock, awaiting := (f s.motion).awaiting } := (rfl)

@[simp] theorem State.changeMotion_kept (s : State) (f : Motion → Motion) :
    (s.changeMotion f).kept = { s.kept with
      enable := (f s.motion).enable, interlock := (f s.motion).interlock, awaiting := (f s.motion).awaiting } := (rfl)

@[simp] theorem State.clearEvents_kept (be : BitVec 4) (d : Word) (s : State) : (s.clearEvents be d).kept = s.kept := (rfl)
@[simp] theorem State.stageFault_kept (s : State) : (s.stageFault).kept = s.kept := by
  unfold State.stageFault
  repeat' split
  all_goals first | (simp; done) | rfl

@[simp] theorem State.makeFault_kept (k : FaultKind) (place : Nat) (code : BitVec 16) (s : State) : (s.makeFault k place code).kept = s.kept := by
  unfold State.makeFault
  simp
  rfl

@[simp] theorem State.postRecord_kept (p : Plan) (r : Record) (s : State) : (s.postRecord p r).kept = s.kept := by
  unfold State.postRecord
  simp
  rfl

@[simp] theorem State.judgeConsumer_kept (be : BitVec 4) (data : Word) (s : State) : (s.judgeConsumer be data).kept = s.kept := by
  unfold State.judgeConsumer
  simp
  split <;> rfl

@[simp] theorem State.countStall_kept (s : State) : (s.countStall).kept = s.kept := (rfl)
@[simp] theorem State.tripHold_kept (s : State) : (s.tripHold).kept = s.kept := by
  unfold State.tripHold
  simp

@[simp] theorem State.firstTrip_kept (i : Nat) (a : Attribute) (s : State) : (s.firstTrip i a).kept = s.kept := by
  unfold State.firstTrip
  simp
  rfl

@[simp] theorem State.updateAttr_kept (i : Nat) (value wafer : Nat) (counted judged : Bool) (s : State) : (s.updateAttr i value wafer counted judged).kept = s.kept := by
  unfold State.updateAttr
  simp

@[simp] theorem State.countAttr_kept (i : Nat) (wafer : Option Nat) (counted : Bool) (s : State) : (s.countAttr i wafer counted).kept = s.kept := by
  unfold State.countAttr
  repeat' split
  all_goals simp

@[simp] theorem State.handOver_kept (i : Nat) (wafer : Option Nat) (s : State) : (s.handOver i wafer).kept = s.kept := by
  unfold State.handOver
  simp

@[simp] theorem State.countFault_kept (i : Nat) (s : State) : (s.countFault i).kept = s.kept := by
  unfold State.countFault
  simp

@[simp] theorem State.countStage_kept (i : Nat) (s : State) : (s.countStage i).kept = s.kept := by
  unfold State.countStage
  simp

@[simp] theorem State.meanStep_kept (c : Nat) (wafer : Option Nat) (counted : Bool) (s : State) : (s.meanStep c wafer counted).kept = s.kept := by
  unfold State.meanStep
  repeat' split
  all_goals first | (simp; done) | (simp; rfl)

@[simp] theorem State.maxStep_kept (c : Nat) (wafer : Option Nat) (counted : Bool) (s : State) : (s.maxStep c wafer counted).kept = s.kept := by
  unfold State.maxStep
  simp

@[simp] theorem State.histStep_kept (cls : Nat) (counted : Bool) (s : State) : (s.histStep cls counted).kept = s.kept := by
  unfold State.histStep
  split <;> rfl

@[simp] theorem State.zeroWafer_kept (i : Nat) (s : State) : (s.zeroWafer i).kept = s.kept := by
  unfold State.zeroWafer
  split <;> rfl

@[simp] theorem State.lotJoin_kept (s : State) : (s.lotJoin).kept = s.kept := (rfl)
@[simp] theorem State.lotResult_kept (c : Code) (s : State) : (s.lotResult c).kept = s.kept := (rfl)
@[simp] theorem State.openAttr_kept (i : Nat) (s : State) : (s.openAttr i).kept = s.kept := by
  unfold State.openAttr
  split <;> rfl

@[simp] theorem State.openHist_kept (k : Nat) (s : State) : (s.openHist k).kept = s.kept := by
  unfold State.openHist
  simp
  rfl

@[simp] theorem State.openState_kept (s : State) : (s.openState).kept = s.kept := (rfl)
@[simp] theorem State.endLot_kept (kind : CloseKind) (s : State) : (s.endLot kind).kept = s.kept := (rfl)
@[simp] theorem State.stageLotReport_kept (s : State) : (s.stageLotReport).kept = s.kept := by
  unfold State.stageLotReport
  split <;> rfl

@[simp] theorem State.lotReportStep_kept (s : State) : (s.lotReportStep).kept = s.kept := by
  unfold State.lotReportStep
  simp

@[simp] theorem State.stageDeferred_kept (s : State) : (s.stageDeferred).kept = s.kept := by
  unfold State.stageDeferred
  split <;> rfl

@[simp] theorem State.clearMembership_kept (w : Nat) (s : State) : (s.clearMembership w).kept = s.kept := by
  unfold State.clearMembership
  simp

@[simp] theorem State.takeLotControl_kept (d : Word) (s : State) : (s.takeLotControl d).kept = s.kept := by
  unfold State.takeLotControl
  split <;> simp

@[simp] theorem State.changeDefect_kept (d : Nat) (r : Defect) (ks : List Nat) (s : State) : (s.changeDefect d r ks).kept = s.kept := (rfl)
@[simp] theorem State.buildStep_kept (k : Nat) (s : State) : (s.buildStep k).kept = s.kept := by
  unfold State.buildStep
  repeat' split
  all_goals first | (simp; done) | rfl

@[simp] theorem State.orderFormed_kept (s : State) : (s.orderFormed).kept = s.kept := by
  unfold State.orderFormed
  split <;> rfl

@[simp] theorem State.sealResult_kept (c : Code) (s : State) : (s.sealResult c).kept = s.kept := (rfl)
@[simp] theorem State.clearList_kept (s : State) : (s.clearList).kept = s.kept := (rfl)
@[simp] theorem State.clearImaged_kept (s : State) : (s.clearImaged).kept = s.kept := by
  unfold State.clearImaged
  simp
  rfl

@[simp] theorem State.withdrawBuild_kept (s : State) : (s.withdrawBuild).kept = s.kept := (rfl)
@[simp] theorem State.departList_kept (s : State) : (s.departList).kept = s.kept := by
  unfold State.departList
  simp

@[simp] theorem State.takeSeal_kept (v : Word) (s : State) : (s.takeSeal v).kept = s.kept := by
  unfold State.takeSeal
  repeat' split
  all_goals first | (simp; done) | (simp; rfl)

@[simp] theorem State.takeDisposition_kept (d : Nat) (v : Word) (s : State) : (s.takeDisposition d v).kept = s.kept := by
  unfold State.takeDisposition
  repeat' split
  all_goals first | (simp; done) | (simp; rfl)

@[simp] theorem State.popQueue_kept (s : State) : (s.popQueue).kept = s.kept := (rfl)
@[simp] theorem State.activateDefect_kept (d : Nat) (s : State) : (s.activateDefect d).kept = s.kept := by
  unfold State.activateDefect
  simp

@[simp] theorem State.retireDefect_kept (d : Nat) (cause : DefectOutcome) (s : State) : (s.retireDefect d cause).kept = s.kept := by
  unfold State.retireDefect
  simp

@[simp] theorem State.imageRecord_kept (d : Nat) (cls : BitVec 4) (z : Int) (s : State) : (s.imageRecord d cls z).kept = s.kept := (rfl)
@[simp] theorem State.rejectRecord_kept (d : Nat) (s : State) : (s.rejectRecord d).kept = s.kept := by
  unfold State.rejectRecord
  simp

@[simp] theorem State.failRecord_kept (d : Nat) (outcome : DefectOutcome) (s : State) : (s.failRecord d outcome).kept = s.kept := by
  unfold State.failRecord
  split <;> rfl

@[simp] theorem State.returnRecord_kept (d : Nat) (s : State) : (s.returnRecord d).kept = s.kept := (rfl)
@[simp] theorem Motion.requestMove_enable (m : Motion) (now : Nat) (x y : Int) :
    (m.requestMove now x y).enable = m.enable := by unfold Motion.requestMove; split <;> (try split) <;> rfl
@[simp] theorem Motion.requestMove_interlock (m : Motion) (now : Nat) (x y : Int) :
    (m.requestMove now x y).interlock = m.interlock := by unfold Motion.requestMove; split <;> (try split) <;> rfl
@[simp] theorem Motion.requestMove_awaiting (m : Motion) (now : Nat) (x y : Int) :
    (m.requestMove now x y).awaiting = m.awaiting := by unfold Motion.requestMove; split <;> (try split) <;> rfl
@[simp] theorem Motion.requestStop_enable (m : Motion) (now : Nat) : (m.requestStop now).enable = m.enable := by
  unfold Motion.requestStop; split <;> (try split) <;> rfl
@[simp] theorem Motion.requestStop_interlock (m : Motion) (now : Nat) :
    (m.requestStop now).interlock = m.interlock := by unfold Motion.requestStop; split <;> (try split) <;> rfl
@[simp] theorem Motion.requestStop_awaiting (m : Motion) (now : Nat) :
    (m.requestStop now).awaiting = m.awaiting := by unfold Motion.requestStop; split <;> (try split) <;> rfl
@[simp] theorem Motion.endMove_enable (m : Motion) (st : MoveState) (c : StopCause) :
    (m.endMove st c).enable = m.enable := by unfold Motion.endMove; split <;> rfl
@[simp] theorem Motion.endMove_interlock (m : Motion) (st : MoveState) (c : StopCause) :
    (m.endMove st c).interlock = m.interlock := by unfold Motion.endMove; split <;> rfl
@[simp] theorem Motion.endMove_awaiting (m : Motion) (st : MoveState) (c : StopCause) :
    (m.endMove st c).awaiting = m.awaiting := by unfold Motion.endMove; split <;> rfl
@[simp] theorem Motion.setEncoder_enable (m : Motion) (a : Axis) (e : Encoder) :
    (m.setEncoder a e).enable = m.enable := by cases a <;> rfl
@[simp] theorem Motion.setEncoder_interlock (m : Motion) (a : Axis) (e : Encoder) :
    (m.setEncoder a e).interlock = m.interlock := by cases a <;> rfl
@[simp] theorem Motion.setEncoder_awaiting (m : Motion) (a : Axis) (e : Encoder) :
    (m.setEncoder a e).awaiting = m.awaiting := by cases a <;> rfl

@[simp] theorem State.mirror_kept (ph : Phase) (s : State) : (s.mirror ph).kept = s.kept := by
  unfold State.mirror
  split
  · simp
  · rfl

/-- A change of the motion unit that keeps its permission keeps what is kept. -/
theorem State.onMotion_kept_eq {s : State} {f : Motion → Motion}
    (h : (f s.motion).enable = s.motion.enable ∧ (f s.motion).interlock = s.motion.interlock
      ∧ (f s.motion).awaiting = s.motion.awaiting) : (s.onMotion f).kept = s.kept := by
  rw [State.onMotion_kept, h.1, h.2.1, h.2.2]; rfl

@[simp] theorem State.heldFrameStep_kept (s : State) : s.heldFrameStep.kept = s.kept := by
  unfold State.heldFrameStep
  split
  · rw [State.name_kept, State.onMotion_kept_eq ⟨rfl, rfl, rfl⟩]
  · rfl

@[simp] theorem State.settleMove_kept (s : State) : s.settleMove.kept = s.kept := (rfl)

@[simp] theorem State.beginSettling_kept (s : State) : s.beginSettling.kept = s.kept := by
  unfold State.beginSettling
  rw [State.mirror_kept]; rfl

@[simp] theorem State.leaveStep_kept (s : State) : s.leaveStep.kept = s.kept := by
  unfold State.leaveStep
  split
  · rw [State.mirror_kept]; rfl
  · rfl

@[simp] theorem State.judgeArrival_kept (s : State) : s.judgeArrival.kept = s.kept := by
  unfold State.judgeArrival
  repeat' split
  all_goals rfl

@[simp] theorem State.startStep_kept (x y : Int) (s : State) : (s.startStep x y).kept = s.kept := by
  unfold State.startStep
  split
  · rw [State.judgeArrival_kept, State.name_kept, State.onMotion_kept_eq (by simp)]
  · rfl

@[simp] theorem State.stopStep_kept (s : State) : s.stopStep.kept = s.kept := by
  unfold State.stopStep
  dsimp only
  split
  · exact State.onMotion_kept_eq (by simp)
  · rw [State.name_kept, State.onMotion_kept_eq (by simp)]

@[simp] theorem State.stopRequest_kept (s : State) : s.stopRequest.kept = s.kept := by
  unfold State.stopRequest
  simp

@[simp] theorem State.faultedStep_kept (s : State) : s.faultedStep.kept = s.kept := by
  unfold State.faultedStep
  split
  · rw [State.name_kept, State.onMotion_kept_eq (by simp)]
  · rfl

@[simp] theorem State.illegalTransition_kept (axis : Axis) (last new : BitVec 2) (s : State) :
    (s.illegalTransition axis last new).kept = s.kept := by
  unfold State.illegalTransition
  cases axis <;> (dsimp only; split <;> simp)

@[simp] theorem State.encoderTransition_kept (axis : Axis) (ph : BitVec 2) (s : State) : (s.encoderTransition axis ph).kept = s.kept := by
  unfold State.encoderTransition
  dsimp only
  repeat' split
  all_goals first | (simp; done) | (simp; rfl)

@[simp] theorem State.fillShadow_kept (r : Shadow) (s : State) : (s.fillShadow r).kept = s.kept := (rfl)
@[simp] theorem State.discardShadow_kept (s : State) : (s.discardShadow).kept = s.kept := (rfl)
@[simp] theorem State.stageResult_kept (c : Code) (s : State) : (s.stageResult c).kept = s.kept := (rfl)
@[simp] theorem State.takePreset_kept (s : State) : (s.takePreset).kept = s.kept := by
  unfold State.takePreset
  split <;> rfl

@[simp] theorem State.grantTrigger_kept (s : State) : (s.grantTrigger).kept = s.kept := (rfl)
@[simp] theorem State.departMotionStep_kept (s : State) : (s.departMotionStep).kept = s.kept := (rfl)
@[simp] theorem State.loadCycleStep_kept (k : Nat) (full : Bool) (s : State) : (s.loadCycleStep k full).kept = s.kept := by
  unfold State.loadCycleStep
  simp

@[simp] theorem State.engineStart_kept (s : State) : (s.engineStart).kept = s.kept := by
  unfold State.engineStart
  repeat' split
  all_goals simp

/-- What an `engineStart` does: it makes the arbiter's choice of R119, and touches the transform unit alone. -/
theorem State.engineStart_eq (s : State) :
    s.engineStart = { s with xform := arbitrated (forwardAnswer s) s.xform } := by
  unfold State.engineStart arbitrated State.onXform
  cases hv : s.xform.service <;> cases hp : s.xform.seqPlace <;> simp [hp]
  repeat' split
  all_goals simp_all

/-- What an `interpStart` does: it makes the arbiter's choice of R129, and touches the focus unit alone. -/
theorem State.interpStart_eq (s : State) : s.interpStart = { s with focus := interpolating s s.focus } := by
  have h (p : Plan) (x y : Int) : predict { s with focus := s.focus } p x y = predict s p x y := rfl
  simp only [State.interpStart, interpolating, State.onFocus, Bool.or_eq_true, bne_iff_ne, h]
  repeat' split
  all_goals simp_all

/-- The choice of the engine's arbiter is put behind the other steps of the event, and is made once none is left (R119). -/
theorem State.engineChoiceStep_cases (s : State) :
    s.engineChoiceStep = s.goOn [.engineChoice] ∨
      (s.engineChoiceStep = s.engineStart ∧ ∀ op ∈ s.made.flatten, op = .engineChoice) := by
  unfold State.engineChoiceStep
  split
  · exact .inl rfl
  · next h =>
    exact .inr ⟨rfl, fun op hop => Decidable.byContradiction fun hne =>
      h (List.any_eq_true.2 ⟨op, hop, by simpa using hne⟩)⟩

@[simp] theorem State.engineChoiceStep_kept (s : State) : s.engineChoiceStep.kept = s.kept := by
  obtain h | ⟨h, -⟩ := s.engineChoiceStep_cases <;> simp [h]

@[simp] theorem State.placeForward_kept (x y : Int) (s : State) : (s.placeForward x y).kept = s.kept := by
  unfold State.placeForward
  simp

@[simp] theorem State.takeAlignment_kept (d : Word) (s : State) : (s.takeAlignment d).kept = s.kept := by
  unfold State.takeAlignment
  simp

@[simp] theorem State.settleCommit_kept (pc : PendingCommit) (s : State) : (s.settleCommit pc).kept = s.kept := by
  unfold State.settleCommit
  simp

@[simp] theorem State.checkEnded_kept (s : State) : (s.checkEnded).kept = s.kept := by
  unfold State.checkEnded
  repeat' split
  all_goals simp

@[simp] theorem State.wafersAligned_kept (s : State) : (s.wafersAligned).kept = s.kept := by
  unfold State.wafersAligned
  split <;> simp

@[simp] theorem State.takeView_kept (d : Word) (s : State) : (s.takeView d).kept = s.kept := by
  unfold State.takeView
  repeat' split
  all_goals simp

@[simp] theorem State.postView_kept (s : State) : (s.postView).kept = s.kept := by
  unfold State.postView
  split <;> simp

@[simp] theorem State.inverseEnded_kept (s : State) : (s.inverseEnded).kept = s.kept := by
  unfold State.inverseEnded
  split <;> simp

@[simp] theorem State.departTransform_kept (s : State) : (s.departTransform).kept = s.kept := by
  unfold State.departTransform
  simp

@[simp] theorem State.departTransformStep_kept (s : State) : (s.departTransformStep).kept = s.kept := by
  unfold State.departTransformStep
  simp

@[simp] theorem State.onAttempt_kept (f : Attempt → Attempt) (s : State) : (s.onAttempt f).kept = s.kept := by
  unfold State.onAttempt
  simp

@[simp] theorem State.interpStart_kept (s : State) : (s.interpStart).kept = s.kept := by
  unfold State.interpStart
  simp
  split <;> simp

@[simp] theorem State.beginActuatorFrame_kept (z : Int) (s : State) : (s.beginActuatorFrame z).kept = s.kept := by
  unfold State.beginActuatorFrame
  simp

@[simp] theorem State.changeLoop_kept (f : State → State) (s : State) : (s.changeLoop f).kept = (f s).kept := (rfl)

@[simp] theorem State.actuatorSettled_kept (s : State) : (s.actuatorSettled).kept = s.kept := by
  unfold State.actuatorSettled
  simp

@[simp] theorem State.beginSample_kept (n : Nat) (z : Int) (s : State) : (s.beginSample n z).kept = s.kept := by
  unfold State.beginSample
  simp

@[simp] theorem State.requestAttempt_kept (kind : AttemptKind) (x y : Int) (s : State) : (s.requestAttempt kind x y).kept = s.kept := by
  unfold State.requestAttempt
  simp

@[simp] theorem State.endAttempt_kept (outcome : FocusOutcome) (detail : TimeoutDetail) (s : State) : (s.endAttempt outcome detail).kept = s.kept := by
  unfold State.endAttempt
  simp

@[simp] theorem State.sampleRead_kept (e : BitVec 16) (s : State) : (s.sampleRead e).kept = s.kept := by
  unfold State.sampleRead
  repeat' split
  all_goals simp

@[simp] theorem State.useOpen_kept (pred : Option Prediction) (s : State) : (s.useOpen pred).kept = s.kept := (rfl)
@[simp] theorem State.finishAttempt_kept (a : Attempt) (outcome : FocusOutcome) (detail : TimeoutDetail) (s : State) : (s.finishAttempt a outcome detail).kept = s.kept := by
  unfold State.finishAttempt
  simp

@[simp] theorem State.refuseAttempt_kept (s : State) : (s.refuseAttempt).kept = s.kept := by
  unfold State.refuseAttempt
  simp

@[simp] theorem State.abortFocus_kept (tell : Bool) (s : State) : (s.abortFocus tell).kept = s.kept := by
  unfold State.abortFocus
  split <;> simp

@[simp] theorem State.abortStep_kept (a : Attempt) (s : State) : (s.abortStep a).kept = s.kept := by
  unfold State.abortStep
  simp

@[simp] theorem State.predictionDone_kept (s : State) : (s.predictionDone).kept = s.kept := by
  unfold State.predictionDone
  split <;> simp

@[simp] theorem State.actuatorFrameEnd_kept (s : State) : (s.actuatorFrameEnd).kept = s.kept := by
  unfold State.actuatorFrameEnd
  repeat' split
  all_goals simp

@[simp] theorem State.fsettledRise_kept (s : State) : (s.fsettledRise).kept = s.kept := by
  unfold State.fsettledRise
  split <;> simp

@[simp] theorem State.hreadyRise_kept (s : State) : (s.hreadyRise).kept = s.kept := by
  unfold State.hreadyRise
  split <;> simp

@[simp] theorem State.learnStep_kept (x y z : Int) (s : State) : (s.learnStep x y z).kept = s.kept := by
  unfold State.learnStep
  repeat' split
  all_goals simp

@[simp] theorem State.beginClearing_kept (s : State) : (s.beginClearing).kept = s.kept := by
  unfold State.beginClearing
  simp

@[simp] theorem State.endClearing_kept (s : State) : (s.endClearing).kept = s.kept := by
  unfold State.endClearing
  dsimp only
  repeat' split
  all_goals simp

@[simp] theorem State.invalidateNodes_kept (ns : List Nat) (s : State) : (s.invalidateNodes ns).kept = s.kept := by
  unfold State.invalidateNodes
  induction ns generalizing s with
  | nil => rfl
  | cons n ns ih => rw [List.foldl_cons, ih]; rfl

@[simp] theorem State.clearStep_kept (k : Nat) (host : Bool) (s : State) : (s.clearStep k host).kept = s.kept := by
  unfold State.clearStep
  dsimp only
  split
  · simp
  · split <;> simp

@[simp] theorem State.focusResult_kept (c : Code) (s : State) : (s.focusResult c).kept = s.kept := by
  unfold State.focusResult
  simp

@[simp] theorem State.takeFocusControl_kept (d : Word) (s : State) : (s.takeFocusControl d).kept = s.kept := by
  unfold State.takeFocusControl
  split <;> simp

@[simp] theorem State.takeQuery_kept (d : Word) (s : State) : (s.takeQuery d).kept = s.kept := by
  unfold State.takeQuery
  simp

@[simp] theorem State.postQuery_kept (pr : Prediction) (s : State) : (s.postQuery pr).kept = s.kept := by
  unfold State.postQuery
  simp

@[simp] theorem State.departFocus_kept (s : State) : (s.departFocus).kept = s.kept := by
  unfold State.departFocus
  simp

@[simp] theorem State.departFocusStep_kept (s : State) : (s.departFocusStep).kept = s.kept := by
  unfold State.departFocusStep
  simp

@[simp] theorem State.enterHalted_kept (s : State) : (s.enterHalted).kept = s.kept := by
  unfold State.enterHalted
  simp

@[simp] theorem State.enterPaused_kept (r : PauseReason) (s : State) : (s.enterPaused r).kept = s.kept := by
  unfold State.enterPaused
  simp

@[simp] theorem State.stageSeq_kept (r : Record) (s : State) : (s.stageSeq r).kept = s.kept := (rfl)
@[simp] theorem State.beginStagingWait_kept (w : StagingWait) (f : Sequencer → Sequencer) (s : State) : (s.beginStagingWait w f).kept = s.kept := by
  unfold State.beginStagingWait
  simp

@[simp] theorem State.nowDone_kept (cause : DoneCause) (s : State) : (s.nowDone cause).kept = s.kept := by
  unfold State.nowDone
  simp

@[simp] theorem State.enterDone_kept (cause : DoneCause) (s : State) : (s.enterDone cause).kept = s.kept := by
  unfold State.enterDone
  simp

/-- A decision point keeps what its continuation keeps. -/
theorem State.decision_kept {go : State → State} (h : ∀ s, (go s).kept = s.kept) (s : State) :
    (State.decision go s).kept = s.kept := by
  unfold State.decision
  all_goals simp [h]

@[simp] theorem State.forwardRequest_kept (purpose : Purpose) (x y : Int) (s : State) :
    (s.forwardRequest purpose x y).kept = s.kept := by
  unfold State.forwardRequest
  simp

@[simp] theorem State.takeTarget_kept (d : Nat) (x y : Int) (s : State) : (s.takeTarget d x y).kept = s.kept := by
  unfold State.takeTarget
  simp

@[simp] theorem State.askShadowStep_kept (d : Nat) (s : State) : (s.askShadowStep d).kept = s.kept := by
  unfold State.askShadowStep
  dsimp only
  repeat' split
  all_goals simp

@[simp] theorem State.beginTarget_kept (d : Nat) (s : State) : (s.beginTarget d).kept = s.kept := by
  unfold State.beginTarget
  simp

@[simp] theorem State.selectHead_kept (s : State) : (s.selectHead).kept = s.kept := by
  unfold State.selectHead
  split <;> simp

@[simp] theorem State.enterSelect_kept (s : State) : (s.enterSelect).kept = s.kept := by
  unfold State.enterSelect
  simp

@[simp] theorem State.beginSelect_kept (s : State) : s.beginSelect.kept = s.kept := by
  unfold State.beginSelect
  rw [State.decision_kept State.selectHead_kept]
  simp

@[simp] theorem State.stageRevisit_kept (r : Record) (s : State) : (s.stageRevisit r).kept = s.kept := by
  unfold State.stageRevisit
  simp

@[simp] theorem State.retired_kept (cause : DefectOutcome) (report : Option Record) (s : State) : (s.retired cause report).kept = s.kept := by
  unfold State.retired
  split <;> simp

@[simp] theorem State.selectStep_kept (s : State) : (s.selectStep).kept = s.kept := by
  unfold State.selectStep
  simp

@[simp] theorem State.endStagingWait_kept (s : State) : (s.endStagingWait).kept = s.kept := by
  unfold State.endStagingWait
  repeat' split
  all_goals simp

@[simp] theorem State.retireStep_kept (d : Nat) (cause : DefectOutcome) (s : State) : (s.retireStep d cause).kept = s.kept := by
  unfold State.retireStep
  simp

@[simp] theorem State.returnCurrent_kept (s : State) : (s.returnCurrent).kept = s.kept := by
  unfold State.returnCurrent
  split <;> simp

@[simp] theorem State.enterAborted_kept (fault : Bool) (s : State) : (s.enterAborted fault).kept = s.kept := by
  unfold State.enterAborted
  simp

@[simp] theorem State.flagAborted_kept (fault : Bool) (s : State) : (s.flagAborted fault).kept = s.kept := by
  unfold State.flagAborted
  simp

@[simp] theorem State.abortNow_kept (fault : Bool) (s : State) : (s.abortNow fault).kept = s.kept := by
  unfold State.abortNow
  simp

@[simp] theorem State.rangeReturnStep_kept (d : Nat) (s : State) : (s.rangeReturnStep d).kept = s.kept := by
  unfold State.rangeReturnStep
  simp

@[simp] theorem State.rangeRetireStep_kept (d : Nat) (s : State) : (s.rangeRetireStep d).kept = s.kept := by
  unfold State.rangeRetireStep
  simp

@[simp] theorem State.activation_kept (d : Nat) (x y : Int) (s : State) : (s.activation d x y).kept = s.kept := by
  unfold State.activation
  simp
  split <;> simp

@[simp] theorem State.activateStep_kept (d : Nat) (x y : Int) (s : State) : (s.activateStep d x y).kept = s.kept := by
  unfold State.activateStep
  dsimp only
  split
  · exact State.decision_kept (State.activation_kept d x y) s
  · rfl

@[simp] theorem State.probeEndNow_kept (outcome : ProbeOutcome) (figures : FocusResult) (s : State) : (s.probeEndNow outcome figures).kept = s.kept := by
  unfold State.probeEndNow
  simp

@[simp] theorem State.probeEndStep_kept (outcome : ProbeOutcome) (a : Option Attempt) (s : State) : (s.probeEndStep outcome a).kept = s.kept := by
  unfold State.probeEndStep
  simp

@[simp] theorem State.endProbeThen_kept (outcome : ProbeOutcome) (after : Task) (s : State) :
    (s.endProbeThen outcome after).kept = s.kept := by
  unfold State.endProbeThen
  simp

@[simp] theorem State.endProbe_kept (outcome : ProbeOutcome) (s : State) : (s.endProbe outcome).kept = s.kept := by
  unfold State.endProbe
  simp

@[simp] theorem State.probeMove_kept (x y : Int) (s : State) : (s.probeMove x y).kept = s.kept := by
  unfold State.probeMove
  split <;> simp

@[simp] theorem State.resumeTarget_kept (s : State) : (s.resumeTarget).kept = s.kept := by
  unfold State.resumeTarget
  repeat' split
  all_goals simp

@[simp] theorem State.fillFrom_kept (i : Nat) (a : FwdAnswer) (s : State) : (s.fillFrom i a).kept = s.kept := by
  unfold State.fillFrom
  split <;> simp

@[simp] theorem State.forwardAnswered_kept (a : FwdAnswer) (s : State) : (s.forwardAnswered a).kept = s.kept := by
  unfold State.forwardAnswered
  dsimp only
  repeat' split
  all_goals simp

@[simp] theorem State.forwardEnded_kept (s : State) : (s.forwardEnded).kept = s.kept := by
  unfold State.forwardEnded
  split <;> simp

@[simp] theorem State.prefetch_kept (s : State) : (s.prefetch).kept = s.kept := by
  unfold State.prefetch
  split <;> simp

@[simp] theorem State.settledNotice_kept (s : State) : s.settledNotice.kept = s.kept := by
  unfold State.settledNotice
  dsimp only
  repeat' split
  all_goals simp

@[simp] theorem State.arriveStep_kept (s : State) : s.arriveStep.kept = s.kept := by
  unfold State.arriveStep
  simp

@[simp] theorem State.settledStep_kept (since : Nat) (s : State) : (s.settledStep since).kept = s.kept := by
  unfold State.settledStep
  simp

@[simp] theorem State.timedOutNotice_kept (s : State) : s.timedOutNotice.kept = s.kept := by
  unfold State.timedOutNotice
  repeat' split
  all_goals simp

@[simp] theorem State.timedOutStep_kept (since : Nat) (s : State) : (s.timedOutStep since).kept = s.kept := by
  unfold State.timedOutStep
  split
  · rw [State.timedOutNotice_kept, State.name_kept, State.onMotion_kept_eq (by simp)]
  · rfl

@[simp] theorem State.moveStep_kept (c : MoveStep) (s : State) : (s.moveStep c).kept = s.kept := by
  cases c <;> simp [State.moveStep]

@[simp] theorem State.requestTrigger_kept (s : State) : (s.requestTrigger).kept = s.kept := by
  unfold State.requestTrigger
  repeat' split
  all_goals rfl

@[simp] theorem State.triggerStep_kept (current : Option Nat) (s : State) : (s.triggerStep current).kept = s.kept := by
  unfold State.triggerStep
  repeat' split
  all_goals simp

@[simp] theorem State.enterResolve_kept (request : State → State) (attr : Nat) (ops : Task) (s : State) :
    (s.enterResolve request attr ops).kept = (request s).kept := (rfl)

@[simp] theorem State.failNow_kept (outcome : DefectOutcome) (s : State) : (s.failNow outcome).kept = s.kept := by
  unfold State.failNow
  split <;> simp

@[simp] theorem State.failStep_kept (outcome : DefectOutcome) (s : State) : (s.failStep outcome).kept = s.kept := by
  unfold State.failStep
  simp

@[simp] theorem State.resolveEndStep_kept (report : Bool) (s : State) : (s.resolveEndStep report).kept = s.kept := by
  unfold State.resolveEndStep
  repeat' split
  all_goals simp

@[simp] theorem State.visitedStep_kept (s : State) : (s.visitedStep).kept = s.kept := by
  unfold State.visitedStep
  split <;> simp

@[simp] theorem State.reviewingStep_kept (s : State) : (s.reviewingStep).kept = s.kept := by
  unfold State.reviewingStep
  split <;> simp

@[simp] theorem State.countFallback_kept (source : Source) (s : State) : (s.countFallback source).kept = s.kept := by
  unfold State.countFallback
  split <;> simp

@[simp] theorem State.focusResultStep_kept (kind : AttemptKind) (outcome : FocusOutcome) (figures : FocusResult) (s : State) : (s.focusResultStep kind outcome figures).kept = s.kept := by
  unfold State.focusResultStep
  repeat' split
  all_goals simp

@[simp] theorem State.focusResulted_kept (a : Attempt) (outcome : FocusOutcome) (detail : TimeoutDetail) (s : State) :
    (s.focusResulted a outcome detail).kept = s.kept := by
  unfold State.focusResulted
  simp

@[simp] theorem State.focusEndStep_kept (outcome : FocusOutcome) (detail : TimeoutDetail) (s : State) : (s.focusEndStep outcome detail).kept = s.kept := by
  unfold State.focusEndStep
  split <;> simp

@[simp] theorem State.focusAbortStep_kept (tell : Bool) (s : State) : (s.focusAbortStep tell).kept = s.kept := by
  unfold State.focusAbortStep
  split <;> simp

@[simp] theorem State.focusRefusedStep_kept (kind : AttemptKind) (s : State) : (s.focusRefusedStep kind).kept = s.kept := by
  unfold State.focusRefusedStep
  simp

@[simp] theorem State.abortNotice_kept (fault : Bool) (s : State) : (s.abortNotice fault).kept = s.kept := by
  unfold State.abortNotice
  simp

@[simp] theorem State.presenceNotice_kept (s : State) : (s.presenceNotice).kept = s.kept := by
  unfold State.presenceNotice
  simp

@[simp] theorem State.encoderNotice_kept (s : State) : (s.encoderNotice).kept = s.kept := by
  unfold State.encoderNotice
  simp

@[simp] theorem State.refuseControl_kept (c : Code) (s : State) : (s.refuseControl c).kept = s.kept := by
  unfold State.refuseControl
  simp

@[simp] theorem State.acceptControl_kept (s : State) : (s.acceptControl).kept = s.kept := by
  unfold State.acceptControl
  simp

@[simp] theorem State.controlResultStep_kept (s : State) : (s.controlResultStep).kept = s.kept := by
  unfold State.controlResultStep
  simp

@[simp] theorem State.start_kept (s : State) : (s.start).kept = s.kept := by
  unfold State.start
  simp

@[simp] theorem State.setFlag_kept (f : Sequencer → Sequencer) (s : State) : (s.setFlag f).kept = s.kept := by
  unfold State.setFlag
  simp

@[simp] theorem State.resume_kept (s : State) : (s.resume).kept = s.kept := by
  unfold State.resume
  simp

@[simp] theorem State.abandonRevisit_kept (s : State) : (s.abandonRevisit).kept = s.kept := by
  unfold State.abandonRevisit
  simp

@[simp] theorem State.abandonProbe_kept (s : State) : (s.abandonProbe).kept = s.kept := by
  unfold State.abandonProbe
  simp

@[simp] theorem State.abandon_kept (s : State) : (s.abandon).kept = s.kept := by
  unfold State.abandon
  simp

@[simp] theorem State.probe_kept (s : State) : (s.probe).kept = s.kept := by
  unfold State.probe
  simp

@[simp] theorem State.stop_kept (s : State) : (s.stop).kept = s.kept := by
  unfold State.stop
  simp

@[simp] theorem State.pause_kept (s : State) : (s.pause).kept = s.kept := by
  unfold State.pause
  simp

@[simp] theorem State.takeSeqControl_kept (d : Word) (s : State) : (s.takeSeqControl d).kept = s.kept := by
  unfold State.takeSeqControl
  split <;> simp

@[simp] theorem State.takeVerdict_kept (w : Word) (s : State) : (s.takeVerdict w).kept = s.kept := by
  unfold State.takeVerdict
  simp

@[simp] theorem State.verdictStep_kept (code d : Nat) (cls : BitVec 4) (s : State) :
    (s.verdictStep code d cls).kept = s.kept := by
  unfold State.verdictStep
  repeat' split
  all_goals simp

@[simp] theorem State.departSequencer_kept (s0 s : State) : (State.departSequencer s0 s).kept = s.kept := (rfl)

@[simp] theorem State.refreshSensor_kept (k : Nat) (s : State) : (s.refreshSensor k).kept = s.kept := by
  unfold State.refreshSensor
  simp

@[simp] theorem State.refreshPresence_kept (s : State) : (s.refreshPresence).kept = s.kept := by
  unfold State.refreshPresence
  simp

@[simp] theorem State.compareAfresh_kept (p : Nat) (s : State) : (s.compareAfresh p).kept = s.kept := by
  unfold State.compareAfresh
  simp

@[simp] theorem State.presenceStep_kept (p : Nat) (missing : Bool) (s : State) : (s.presenceStep p missing).kept = s.kept := by
  unfold State.presenceStep
  simp
  split <;> simp

@[simp] theorem State.applyLoad_kept (w : Nat) (s : State) : (s.applyLoad w).kept = s.kept := by
  unfold State.applyLoad
  simp

@[simp] theorem State.load_kept (w : Nat) (s : State) : (s.load w).kept = s.kept := by
  unfold State.load
  simp

@[simp] theorem State.departureNotice_kept (w : Nat) (s : State) : (s.departureNotice w).kept = s.kept := by
  unfold State.departureNotice
  simp

@[simp] theorem State.depart_kept (w : Nat) (s : State) : (s.depart w).kept = s.kept := by
  unfold State.depart
  simp

@[simp] theorem State.stageTransfer_kept (k : Nat) (s : State) : (s.stageTransfer k).kept = s.kept := (rfl)
@[simp] theorem State.queueTransfer_kept (k : Nat) (s : State) : (s.queueTransfer k).kept = s.kept := by
  unfold State.queueTransfer
  simp

@[simp] theorem State.takeGo_kept (k : Nat) (d : Word) (s : State) : (s.takeGo k d).kept = s.kept := by
  unfold State.takeGo
  simp

@[simp] theorem State.failTransfer_kept (k : Nat) (reason : FailReason) (s : State) : (s.failTransfer k reason).kept = s.kept := by
  unfold State.failTransfer
  simp

@[simp] theorem State.sendTransfer_kept (k : Nat) (s : State) : (s.sendTransfer k).kept = s.kept := by
  unfold State.sendTransfer
  simp

@[simp] theorem State.sendAttemptStep_kept (s : State) : (s.sendAttemptStep).kept = s.kept := by
  unfold State.sendAttemptStep
  repeat' split
  all_goals simp

@[simp] theorem State.stopRobotTimers_kept (s : State) : (s.stopRobotTimers).kept = s.kept := by
  unfold State.stopRobotTimers
  simp

@[simp] theorem State.restoreTransfer_kept (k : Nat) (reason : FailReason) (code : Byte) (s : State) : (s.restoreTransfer k reason code).kept = s.kept := by
  unfold State.restoreTransfer
  simp

@[simp] theorem State.transferFaulted_kept (k : Nat) (s : State) : (s.transferFaulted k).kept = s.kept := by
  unfold State.transferFaulted
  simp

@[simp] theorem State.ackTimeout_kept (k : Nat) (s : State) : (s.ackTimeout k).kept = s.kept := by
  unfold State.ackTimeout
  simp

@[simp] theorem State.refuseTransfer_kept (k : Nat) (code : Byte) (s : State) : (s.refuseTransfer k code).kept = s.kept := by
  unfold State.refuseTransfer
  simp

@[simp] theorem State.transferFault_kept (k : Nat) (reason : FailReason) (code : Byte) (s : State) : (s.transferFault k reason code).kept = s.kept := by
  unfold State.transferFault
  simp

@[simp] theorem State.completeTransfer_kept (k : Nat) (s : State) : (s.completeTransfer k).kept = s.kept := by
  unfold State.completeTransfer
  dsimp only
  repeat' split
  all_goals simp

@[simp] theorem State.stray_kept (s : State) : (s.stray).kept = s.kept := by
  unfold State.stray
  simp

@[simp] theorem State.replyStep_kept (kind : ReplyKind) (tag a : Byte) (s : State) : (s.replyStep kind tag a).kept = s.kept := by
  unfold State.replyStep
  dsimp only
  repeat' split
  all_goals simp

@[simp] theorem State.ackExpiredStep_kept (s : State) : (s.ackExpiredStep).kept = s.kept := by
  unfold State.ackExpiredStep
  split <;> simp

@[simp] theorem State.doneExpiredStep_kept (s : State) : (s.doneExpiredStep).kept = s.kept := by
  unfold State.doneExpiredStep
  split <;> simp

@[simp] theorem State.received_kept (r : Received) (s : State) : (s.received r).kept = s.kept := by
  unfold State.received
  repeat' split
  all_goals simp

@[simp] theorem State.receiveByte_kept (b : Byte) (s : State) : (s.receiveByte b).kept = s.kept := by
  unfold State.receiveByte
  simp

@[simp] theorem State.abandonFrame_kept (s : State) : (s.abandonFrame).kept = s.kept := by
  unfold State.abandonFrame
  simp

@[simp] theorem State.receiveBytes_kept (bs : List Byte) (s : State) : (s.receiveBytes bs).kept = s.kept := by
  unfold State.receiveBytes
  induction bs generalizing s with
  | nil => rfl
  | cons b bs ih => rw [List.foldl_cons, ih, State.receiveByte_kept]

@[simp] theorem State.receiveFrame_kept (type tag a b check : Byte) (s : State) :
    (s.receiveFrame type tag a b check).kept = s.kept := State.receiveBytes_kept _ _

@[simp] theorem State.mapStep_kept (c : Carrier) (k : Nat) (pattern : Word) (s : State) : (s.mapStep c k pattern).kept = s.kept := by
  unfold State.mapStep
  simp

@[simp] theorem State.declareStep_kept (w t : Nat) (s : State) : (s.declareStep w t).kept = s.kept := by
  unfold State.declareStep
  simp

@[simp] theorem State.declareOps_kept (w t : Nat) (s : State) : (s.declareOps w t).kept = s.kept := by
  unfold State.declareOps
  simp

@[simp] theorem State.declareEmpty_kept (t : Nat) (s : State) : (s.declareEmpty t).kept = s.kept := by
  unfold State.declareEmpty
  simp

@[simp] theorem State.cancelTransfer_kept (k : Nat) (s : State) : (s.cancelTransfer k).kept = s.kept := by
  unfold State.cancelTransfer
  simp

@[simp] theorem State.refuseHandling_kept (c : Code) (s : State) : (s.refuseHandling c).kept = s.kept := by
  unfold State.refuseHandling
  simp

@[simp] theorem State.takeHandling_kept (d : Word) (s : State) : (s.takeHandling d).kept = s.kept := by
  unfold State.takeHandling
  repeat' split
  all_goals simp

@[simp] theorem State.adoptStageWafer_kept (s : State) : (s.adoptStageWafer).kept = s.kept := by
  unfold State.adoptStageWafer
  split <;> simp

@[simp] theorem State.judgeElapsed_kept (k : Nat) (s : State) : (s.judgeElapsed k).kept = s.kept := by
  unfold State.judgeElapsed
  split <;> simp

@[simp] theorem State.judgeDebounces_kept (s : State) : s.judgeDebounces.kept = s.kept := by
  simp [State.judgeDebounces, List.range, List.range.loop]

@[simp] theorem State.adoptionEnded_kept (s : State) : (s.adoptionEnded).kept = s.kept := by
  unfold State.adoptionEnded
  simp

@[simp] theorem State.adoptionStep_kept (k : Nat) (s : State) : (s.adoptionStep k).kept = s.kept := by
  unfold State.adoptionStep
  simp

@[simp] theorem State.refuseStartUp_kept (r : PlanResult) (off : Nat) (s : State) : (s.refuseStartUp r off).kept = s.kept := by
  unfold State.refuseStartUp
  simp

@[simp] theorem State.startUpEnded_kept (s : State) : (s.startUpEnded).kept = s.kept := by
  unfold State.startUpEnded
  simp

@[simp] theorem State.refuseCommit_kept (r : PlanResult) (off : Nat) (s : State) : (s.refuseCommit r off).kept = s.kept := by
  unfold State.refuseCommit
  simp

@[simp] theorem State.takeCommit_kept (d : Word) (s : State) : (s.takeCommit d).kept = s.kept := by
  unfold State.takeCommit
  simp

@[simp] theorem State.slotEmptied_kept (k : Producer) (s : State) : (s.slotEmptied k).kept = s.kept := by
  unfold State.slotEmptied
  split <;> simp

/-- A change of the report unit keeps what is kept. -/
theorem State.report_kept (s : State) (r : Report) : ({ s with report := r } : State).kept = s.kept := (rfl)

@[simp] theorem State.postingStep_kept (k : Producer) (s : State) : (s.postingStep k).kept = s.kept := by
  unfold State.postingStep
  repeat' split
  all_goals first | rfl | (rw [State.slotEmptied_kept, State.report_kept, State.postRecord_kept])


end Sys2Proof.Machine
end

