-- ==== Sys2Proof/Laws/Steps.lean ====
section
/-! SUPPORT. What a step does: which part of the state no step touches, what a taken step does to the write-back queue,
and how the steps of an event are taken. -/

namespace Sys2Proof.Machine

/-! ### What no step touches -/

/-- What no operation at all touches: memory, the queue of commands, the reset line, the strap, the clock, the plan in
force, the read data, the memory port, the wait at it. -/
structure Fixed where
  mem      : List Host.Cell
  pending  : List Instr
  inReset  : Bool
  planSel  : BitVec 2
  now      : Nat
  plan     : Option Plan
  hData    : List Word
  mAccess  : Option MemAccess
  hostMore : Bool
  hostWaits : Option HostWait

def State.fixed (s : State) : Fixed :=
  { mem := s.mem, pending := s.pending, inReset := s.inReset, planSel := s.planSel, now := s.now, plan := s.plan,
    hData := s.hData, mAccess := s.mAccess, hostMore := s.hostMore, hostWaits := s.hostWaits }

/-- What is kept includes what is fixed. -/
theorem State.fixed_of_kept {s t : State} (h : t.kept = s.kept) : t.fixed = s.fixed := by
  simp only [State.kept, Kept.mk.injEq] at h
  obtain ⟨h1, -, h2, h3, h4, h5, h6, h7, h8, -, -, h9, h10, -⟩ := h
  simp only [State.fixed, *]

theorem State.queue_of_kept {s t : State} (h : t.kept = s.kept) : t.queue = s.queue := congrArg Kept.queue h

theorem permissionLawful_of_kept {s t : State} (h : t.kept = s.kept) (hs : permissionLawful s.motion = true) :
    permissionLawful t.motion = true := by
  have h1 : t.motion.enable = s.motion.enable := congrArg Kept.enable h
  have h2 : t.motion.interlock = s.motion.interlock := congrArg Kept.interlock h
  have h3 : t.motion.awaiting = s.motion.awaiting := congrArg Kept.awaiting h
  simpa only [permissionLawful, h1, h2, h3] using hs

/-- What the lemmas below say of a state that a step makes of another: nothing fixed and nothing of the write-back queue
is touched, and the permission stays lawful. -/
def SpecOf (s t : State) : Prop :=
  t.fixed = s.fixed ∧ t.queue = s.queue ∧ (permissionLawful s.motion = true → permissionLawful t.motion = true)

theorem SpecOf.refl (s : State) : SpecOf s s := ⟨rfl, rfl, id⟩

theorem SpecOf.of_kept {s t : State} (h : t.kept = s.kept) : SpecOf s t :=
  ⟨State.fixed_of_kept h, State.queue_of_kept h, permissionLawful_of_kept h⟩

theorem SpecOf.trans {s t u : State} (h : SpecOf s t) (h' : SpecOf t u) : SpecOf s u :=
  ⟨h'.1.trans h.1, h'.2.1.trans h.2.1, h'.2.2 ∘ h.2.2⟩

/-- A change of the motion unit that keeps its permission lawful. -/
theorem SpecOf.onMotion {s : State} {f : Motion → Motion}
    (h : permissionLawful s.motion = true → permissionLawful (f s.motion) = true) : SpecOf s (s.onMotion f) :=
  ⟨rfl, rfl, h⟩

theorem State.takeEnable_spec (s : State) : SpecOf s s.takeEnable := by
  unfold State.takeEnable
  split
  · exact SpecOf.of_kept (by simp)
  · rename_i hi
    have hi' : s.motion.interlock = false := by simpa using hi
    exact SpecOf.onMotion fun _ => by simp [permissionLawful, hi']

theorem State.takeDisable_spec (s : State) : SpecOf s s.takeDisable := by
  unfold State.takeDisable
  refine ⟨rfl, rfl, fun h => ?_⟩
  dsimp only
  split <;> simp_all [permissionLawful]

/-- A stage control request touches nothing that is fixed, and keeps the permission lawful. -/
theorem State.takeStageControl_spec (d : Word) (s : State) : SpecOf s (s.takeStageControl d) := by
  unfold State.takeStageControl
  split
  · exact SpecOf.of_kept (by simp)
  · exact s.takeEnable_spec.trans (SpecOf.of_kept (by simp))
  · refine s.takeDisable_spec.trans (SpecOf.of_kept ?_)
    dsimp only
    split <;> simp
  · exact SpecOf.of_kept (by simp)

/-- A request touches nothing that is fixed, and keeps the permission lawful. -/
theorem State.takeRequest_spec (w : WordRef) (d : Word) (s : State) : SpecOf s (s.takeRequest w d) := by
  unfold State.takeRequest
  split
  · exact SpecOf.of_kept (by simp)
  · exact SpecOf.of_kept (by split <;> simp)
  · split
    · exact State.takeStageControl_spec d s
    · exact SpecOf.of_kept (by split <;> simp)
  · exact SpecOf.of_kept (by split <;> simp)
  · exact SpecOf.of_kept (by repeat' split
                             all_goals simp)
  · exact SpecOf.of_kept (by simp)
  · exact SpecOf.of_kept (by simp)

/-- No operation touches what is fixed or the write-back queue, and every one keeps the permission lawful. -/
theorem runOp_spec (op : StepOp) (s : State) : SpecOf s (runOp op s) := by
  cases op
  case finishHost => exact ⟨rfl, rfl, id⟩
  case request w d => exact State.takeRequest_spec w d s
  all_goals exact SpecOf.of_kept (by simp [runOp])

/-! ### Taking a step -/

/-- The state in which an operation is carried out. -/
def State.fresh (s : State) : State := { s with named := [], sequel := [] }

/-- What an operation makes of a state; taken behind a waiting step, it shows what it changed (R17). -/
def State.ran (behind : Bool) (op : StepOp) (s : State) : State :=
  if behind then State.supersede op s (runOp op s.fresh) else runOp op s.fresh

/-- The entries that the step of an operation needs. -/
def State.ranEntries (behind : Bool) (op : StepOp) (s : State) : List (Nat × Word) :=
  wordEntries (s.ran behind op) (s.ran behind op).named

/-- What a taken step makes: what its operation does, with the values of the words it names in the write-back queue. -/
def State.took (behind : Bool) (op : StepOp) (s : State) : State :=
  { s.ran behind op with queue := putEntries s.queue (s.ranEntries behind op), named := [] }

/-- A step is taken exactly where it fits and, behind a waiting step, may go first. -/
theorem tryStep_eq (behind : Bool) (op : StepOp) (s : State) :
    tryStep behind op s
      = if (fits s.queue (s.ranEntries behind op) && (!behind || jumps op s (s.ranEntries behind op))) = true
        then some (s.took behind op) else none := rfl

/-- A step that is taken. -/
theorem tryStep_eq_some {behind : Bool} {op : StepOp} {s t : State} (h : tryStep behind op s = some t) :
    fits s.queue (s.ranEntries behind op) = true ∧ t = s.took behind op := by
  rw [tryStep_eq] at h
  split at h
  · rename_i hc
    exact ⟨(Bool.and_eq_true _ _ ▸ hc).1, (Option.some.inj h).symm⟩
  · cases h

/-- With nothing waiting before it a step is taken where it fits. -/
theorem tryStep_of_fits {op : StepOp} {s : State} (h : fits s.queue (s.ranEntries false op) = true) :
    tryStep false op s = some (s.took false op) := by
  rw [tryStep_eq, if_pos (by simp [h])]

/-- A step names no more entries than words. -/
theorem length_wordEntries_le (s : State) (ws : List WordRef) : (wordEntries s ws).length ≤ ws.length :=
  List.length_filterMap_le _ _

theorem State.supersede_spec (op : StepOp) (s t : State) : SpecOf t (State.supersede op s t) := ⟨rfl, rfl, id⟩

theorem State.ran_spec (behind : Bool) (op : StepOp) (s : State) : SpecOf s (s.ran behind op) := by
  have h : SpecOf s (runOp op s.fresh) := ⟨(runOp_spec op s.fresh).1, (runOp_spec op s.fresh).2.1, (runOp_spec op s.fresh).2.2⟩
  unfold State.ran
  split
  · exact h.trans (State.supersede_spec op s _)
  · exact h

/-- What every step keeps: what is fixed, a lawful write-back queue, a lawful permission. -/
def Keeps (s t : State) : Prop :=
  t.fixed = s.fixed ∧ (queueLawful s.queue = true → queueLawful t.queue = true)
    ∧ (permissionLawful s.motion = true → permissionLawful t.motion = true)

theorem Keeps.refl (s : State) : Keeps s s := ⟨rfl, id, id⟩

theorem Keeps.trans {s t u : State} (h : Keeps s t) (h' : Keeps t u) : Keeps s u :=
  ⟨h'.1.trans h.1, h'.2.1 ∘ h.2.1, h'.2.2 ∘ h.2.2⟩

/-- Which steps are made and wait is not in question. -/
theorem Keeps.of_waiting {s t : State} {w : List Task} (h : Keeps { s with waiting := w } t) : Keeps s t :=
  ⟨h.1, h.2.1, h.2.2⟩

theorem Keeps.of_tasks (s : State) (m w : List Task) (q : Task) :
    Keeps s { s with made := m, waiting := w, sequel := q } := ⟨rfl, id, id⟩

/-- A taken step. -/
theorem tryStep_spec {behind : Bool} {op : StepOp} {s t : State} (h : tryStep behind op s = some t) : Keeps s t := by
  obtain ⟨hf, rfl⟩ := tryStep_eq_some h
  have hr := State.ran_spec behind op s
  refine ⟨?_, fun hq => queueLawful_putEntries hq hf, hr.2.2⟩
  rw [← hr.1]; rfl

/-! ### The steps of an event -/

/-- What is kept by every taken step, and by the making, the waiting and the going on of steps, the steps of an event
keep. -/
theorem flush_induct {P : State → Prop}
    (hm : ∀ (s : State) (m w : List Task) (q : Task), P s → P { s with made := m, waiting := w, sequel := q })
    (ht : ∀ b op s t, tryStep b op s = some t → P s → P t) (n : Nat) (s : State) (h : P s) : P (flush n s) := by
  induction n generalizing s with
  | zero => exact hm s [] (s.waiting ++ s.made) s.sequel h
  | succ n ih =>
    unfold flush
    split
    · exact h
    · exact ih _ (hm s _ s.waiting s.sequel h)
    · rename_i op rest more _
      split
      · rename_i t heq
        refine ih _ ?_
        have h1 := ht _ _ _ _ heq (hm s (rest :: more) s.waiting s.sequel h)
        unfold State.proceed
        dsimp only
        split
        · exact hm t _ t.waiting [] h1
        · exact hm t _ t.waiting [] h1
      · exact ih _ (hm s more (s.waiting ++ [op :: rest]) s.sequel h)

/-- An event with no step made ends as it is. -/
@[simp] theorem flush_nil (n : Nat) {s : State} (h : s.made = []) : flush n s = s := by
  cases n with
  | zero => simp only [flush, State.makeWait, h, List.append_nil]; rw [← h]
  | succ n => simp only [flush, h]

/-- A task of which no step is left is gone. -/
theorem flush_done {n : Nat} {s : State} {more : List Task} (hm : s.made = [] :: more) :
    flush (n + 1) s = flush n { s with made := more } := by
  simp only [flush, hm]

/-- The first step of the first task made is taken where it can be. -/
theorem flush_taken {n : Nat} {s t : State} {op : StepOp} {rest : Task} {more : List Task}
    (hm : s.made = (op :: rest) :: more)
    (ht : tryStep (someWaits s) op { s with made := rest :: more } = some t) :
    flush (n + 1) s = flush n (t.proceed op) := by
  simp only [flush, hm, ht]

/-- A step that cannot be taken begins to wait, with what its operation has to come (R18). -/
theorem flush_waits {n : Nat} {s : State} {op : StepOp} {rest : Task} {more : List Task}
    (hm : s.made = (op :: rest) :: more)
    (ht : tryStep (someWaits s) op { s with made := rest :: more } = none) :
    flush (n + 1) s = flush n { s with made := more, waiting := s.waiting ++ [op :: rest] } := by
  simp only [flush, hm, ht]

/-- An operation that does not go on leaves the rest of its task first. -/
theorem State.proceed_nil {op : StepOp} {t : State} {rest : Task} {more : List Task} (hs : t.sequel = [])
    (hm : t.made = rest :: more) : t.proceed op = { t with made := putFirst rest more, sequel := [] } := by
  simp [State.proceed, hs, hm]

/-- The steps of an event touch nothing that is fixed, and keep the write-back queue and the permission lawful. -/
theorem flush_spec (n : Nat) (s : State) : Keeps s (flush n s) :=
  flush_induct (P := Keeps s) (fun _ _ _ _ h => h) (fun _ _ _ _ hab h => h.trans (tryStep_spec hab)) n s (Keeps.refl s)

/-- The end of an event. -/
theorem State.settle_spec (s : State) : Keeps s s.settle :=
  (flush_spec 256 s).trans (Keeps.of_tasks (flush 256 s) _ _ _)

/-- The steps that follow a waiting step in the same event. -/
theorem follow_spec (n : Nat) (s : State) : Keeps s (follow n s) := by
  induction n generalizing s with
  | zero => exact Keeps.refl s
  | succ n ih =>
    unfold follow
    split
    · split
      · rename_i t heq
        split
        · exact (Keeps.of_waiting (tryStep_spec heq)).trans (ih t)
        · exact Keeps.refl s
      · exact Keeps.refl s
    · exact Keeps.refl s

/-- Taking the first of the waiting steps. -/
theorem State.takeWaiting_spec (s : State) : Keeps s s.takeWaiting := by
  unfold State.takeWaiting
  split
  · exact Keeps.refl s
  · exact Keeps.refl s
  · split
    · exact Keeps.refl s
    · rename_i t heq
      have h : Keeps s t := Keeps.of_waiting (tryStep_spec heq)
      dsimp only
      split
      · exact h.trans ((follow_spec 256 t).trans (State.settle_spec _))
      · split
        · exact h.trans ((Keeps.of_tasks t _ _ _).trans (State.settle_spec _))
        · exact h.trans ((Keeps.of_tasks t _ _ _).trans (State.settle_spec _))

/-- A command's effect outside reset. -/
theorem State.act_eq {f : State → State} {s : State} (h : s.inReset = false) : s.act f = .next (f s).settle := by
  simp [State.act, h]

end Sys2Proof.Machine
end

