-- ==== Sys2Proof/Laws/Host.lean ====
section
/-! SUPPORT. How a host word reaches its block, and how the steps of a request are taken. -/

namespace Sys2Proof.Machine

/-! ### Quiet states -/

theorem Quiet.inReset {s : State} (h : Quiet s) : s.inReset = false := h.2.1
theorem Quiet.made {s : State} (h : Quiet s) : s.made = [] := h.2.2.1
theorem Quiet.sequel {s : State} (h : Quiet s) : s.sequel = [] := h.2.2.2.1
theorem Quiet.named {s : State} (h : Quiet s) : s.named = [] := h.2.2.2.2.1
theorem Quiet.waiting {s : State} (h : Quiet s) : s.waiting = [] := h.2.2.2.2.2

theorem Quiet.someWaits {s : State} (h : Quiet s) : someWaits s = false := by simp [Machine.someWaits, h.waiting]

theorem Quiet.mem {s : State} (h : Quiet s) : Memory.wf s.mem = true := by
  have := h.1
  simp only [Inv, Bool.and_eq_true] at this
  exact this.1.1

theorem Quiet.queue {s : State} (h : Quiet s) : s.queue.length ≤ 16 := by
  have := h.1
  simp only [Inv, queueLawful, Bool.and_eq_true, decide_eq_true_eq] at this
  exact this.1.2.1

/-- An event that makes no step, with no empty task waiting. -/
theorem settle_nil {s : State} (h : s.made = []) (hw : s.waiting = []) : s.settle = s := by
  unfold State.settle
  rw [flush_nil 256 h]
  simp only [hw, List.filter_nil]
  rw [← hw]

/-! ### Publishing -/

/-- Words are named in order, each once. -/
theorem foldl_nameWord_nodup (ws acc : List WordRef) (h : (acc ++ ws).Nodup) :
    ws.foldl nameWord acc = acc ++ ws := by
  induction ws generalizing acc with
  | nil => simp
  | cons w ws ih =>
    have hw : w ∉ acc := by
      intro hm
      have := List.nodup_append.mp h
      exact this.2.2 _ hm _ (by simp) rfl
    rw [List.foldl_cons]
    have : nameWord acc w = acc ++ [w] := by simp [nameWord, hw]
    rw [this, ih]
    · simp
    · simpa using h

/-- A publishing step that fits is taken: its words join the queue, and nothing else changes. -/
theorem flush_publish {n : Nat} {s : State} {cs : List Unshown} {rest : Task} {more : List Task}
    (hm : s.made = (.publish cs :: rest) :: more) (hw : someWaits s = false) (hn : (cs.map (·.word)).Nodup)
    (hq : s.queue.length + cs.length ≤ 16) :
    flush (n + 1) s = flush n { s with
      made := putFirst rest more, sequel := [], named := []
      queue := putEntries s.queue (wordEntries { s with made := rest :: more } (cs.map (·.word))) } := by
  have hnamed : (runOp (.publish cs) { s with made := rest :: more }.fresh).named = cs.map (·.word) := by
    show (cs.map (·.word)).foldl nameWord [] = _
    rw [foldl_nameWord_nodup _ _ (by simpa using hn)]; rfl
  have hes : { s with made := rest :: more }.ranEntries false (.publish cs)
      = wordEntries { s with made := rest :: more } (cs.map (·.word)) := by
    unfold State.ranEntries State.ran
    rw [if_neg (by simp), hnamed]
    rfl
  have hf : fits s.queue ({ s with made := rest :: more }.ranEntries false (.publish cs)) = true := by
    rw [hes]
    exact fits_of_length (by
      have := length_wordEntries_le { s with made := rest :: more } (cs.map (·.word)); simp at this; omega)
  rw [flush_taken hm (by rw [hw]; exact tryStep_of_fits hf), State.proceed_nil (rest := rest) (more := more) rfl rfl]
  show flush n { s with made := putFirst rest more, sequel := [], named := [],
                        queue := putEntries s.queue ({ s with made := rest :: more }.ranEntries false (.publish cs)) } = _
  rw [hes]

/-- The request word is finished at once once its step is reached. -/
theorem flush_finishHost {n : Nat} {s : State} {rest : Task} {more : List Task}
    (hm : s.made = (.finishHost :: rest) :: more) (hw : someWaits s = false) (hq : s.queue.length ≤ 16) :
    flush (n + 1) s
      = flush n { s.finishRequest with made := putFirst rest more, sequel := [], named := [] } := by
  have hf : fits s.queue ({ s with made := rest :: more }.ranEntries false .finishHost) = true :=
    fits_of_length (by simpa [State.ranEntries, State.ran, runOp, State.finishRequest, State.fresh, wordEntries] using hq)
  rw [flush_taken hm (by rw [hw]; exact tryStep_of_fits hf), State.proceed_nil (rest := rest) (more := more) rfl rfl]
  rfl

/-! ### Host words -/

/-- A word that the host port takes with the memory port free. -/
theorem Takes.portOpen {s : State} {w : WordRef} {a : Nat} (h : Takes s w a) : portOpen s = true := by
  have := h.2.1
  simp only [memoryOpen, Bool.and_eq_true] at this
  exact this.1.1

theorem Takes.length {s : State} {w : WordRef} {a : Nat} (h : Takes s w a) : s.queue.length < 12 := by
  have := h.2.1
  simp only [memoryOpen, Bool.and_eq_true, decide_eq_true_eq] at this
  exact this.1.2

theorem Takes.hostBusy {s : State} {w : WordRef} {a : Nat} (h : Takes s w a) : s.hostBusy = false := by
  have := h.portOpen
  simp only [Machine.portOpen, Bool.and_eq_true, Bool.not_eq_true'] at this
  exact this.2

/-- Where an address of the map in force decodes to a word, the word lies there. -/
theorem hostNamedWrite_eq {s : State} {w : WordRef} {a : Nat} (h : hostAddr s w = some a) (be : BitVec 4) (d : Word)
    (more : Bool) : s.hostNamedWrite w be d more = s.hostWordWrite w a be d more := by
  simp [State.hostNamedWrite, h]

/-- The state in which a request is handed to its block: memory has the host's word, and the word is not finished
(R11). -/
def State.requested (a : Nat) (d : Word) (more : Bool) (s : State) : State :=
  { s.memWrite a 15 d with hostBusy := true, hostMore := more, hostWaits := none, hReady := false }

/-- A full-word write to a request word is handed to its block. -/
theorem hostWordWrite_request {s : State} {w : WordRef} {a : Nat} (h : Takes s w a)
    (hc : wordClass s.map w = .t) (d : Word) (more : Bool) :
    s.hostWordWrite w a 15 d more = (s.requested a d more).emit (.request w d) := by
  have h1 := h.portOpen
  have h2 := h.2.1
  have h3 : awaitsLoadCycle s w = false := by simp [awaitsLoadCycle, loadCycleWaits, h.1.waiting]
  simp [State.hostWordWrite, h1, h2, h3, hc, State.hostRequest, State.requested]

/-- A request is taken: its block's step joins the queue, and the steps it makes come next. -/
theorem request_taken {s t : State} {w : WordRef} {a : Nat} (h : Takes s w a) (hc : wordClass s.map w = .t)
    {d : Word} {more : Bool} (ht : { s.requested a d more with made := [[]] }.takeRequest w d = t)
    (hn : t.named.length ≤ 5) (n : Nat) :
    flush (n + 1) (s.hostNamedWrite w 15 d more)
      = flush n ({ t with queue := putEntries s.queue (wordEntries t t.named), named := [] }.proceed (.request w d)) := by
  rw [hostNamedWrite_eq h.2.2, hostWordWrite_request h hc]
  have hm : ((s.requested a d more).emit (.request w d)).made = [[.request w d]] := by
    show s.made ++ _ = _
    rw [h.1.made]; rfl
  have hfresh : { (s.requested a d more).emit (.request w d) with made := [[]] }.fresh
      = { s.requested a d more with made := [[]] } := by
    have e1 := h.1.sequel
    have e2 := h.1.named
    unfold State.fresh State.emit State.requested State.memWrite
    simp only [← e1, ← e2]
  have hr : { (s.requested a d more).emit (.request w d) with made := [[]] }.ran false (.request w d) = t := by
    unfold State.ran
    rw [if_neg (by simp), hfresh]
    exact ht
  have hes : { (s.requested a d more).emit (.request w d) with made := [[]] }.ranEntries false (.request w d)
      = wordEntries t t.named := by
    unfold State.ranEntries
    rw [hr]
  have hlen := h.length
  have hf : fits s.queue (wordEntries t t.named) = true := by
    refine fits_of_length ?_
    have := length_wordEntries_le t t.named
    omega
  have hw : someWaits ((s.requested a d more).emit (.request w d)) = false := h.1.someWaits
  rw [flush_taken hm (by rw [hw]; exact tryStep_of_fits (by rw [hes]; exact hf))]
  unfold State.took
  rw [hr, hes]
  rfl

end Sys2Proof.Machine
end

