-- ==== Sys2Proof/Laws/PerInstr.lean ====
section
/-! SUPPORT. The lemmas made per command: every row of spec/opcode_table.json has a well-formed command. -/

namespace Sys2Proof.Laws.Formed

/-- Some command of the same row as `i` is well-formed: the checks of WellFormed.lean shut no row out. -/
def Statement (i : Instr) : Prop := ∃ j : Instr, j.ctorIdx = i.ctorIdx ∧ wellFormed j = true

theorem resetAssert : Statement .resetAssert :=
  ⟨.resetAssert, rfl, rfl⟩

theorem resetRelease (pins : Pins) : Statement (.resetRelease pins) :=
  ⟨.resetRelease pins, rfl, rfl⟩

theorem planRead : Statement .planRead :=
  ⟨.planRead, rfl, rfl⟩

theorem writebackDrain : Statement .writebackDrain :=
  ⟨.writebackDrain, rfl, rfl⟩

theorem waitingStepTaken : Statement .waitingStepTaken :=
  ⟨.waitingStepTaken, rfl, rfl⟩

theorem queueEmptyRelease : Statement .queueEmptyRelease :=
  ⟨.queueEmptyRelease, rfl, rfl⟩

theorem adoptionMoment : Statement .adoptionMoment :=
  ⟨.adoptionMoment, rfl, rfl⟩

theorem forwardedAccess (addr : Addr) (write : Bool) (words : List (BitVec 4 × Word)) (more : Bool) : Statement (.forwardedAccess addr write words more) :=
  ⟨.forwardedAccess addr write [(15, 0)] more, rfl, rfl⟩

theorem hostPWrite (addr : Addr) (be : BitVec 4) (data : Word) (more : Bool) : Statement (.hostPWrite addr be data more) :=
  ⟨.hostPWrite addr be data more, rfl, rfl⟩

theorem hWordWrite (addr : Addr) (be : BitVec 4) (data : Word) (more : Bool) : Statement (.hWordWrite addr be data more) :=
  ⟨.hWordWrite addr 15 data more, rfl, rfl⟩

theorem ringRecordWrite (addr : Addr) (be : BitVec 4) (data : Word) (more : Bool) : Statement (.ringRecordWrite addr be data more) :=
  ⟨.ringRecordWrite addr 15 data more, rfl, rfl⟩

theorem postedResultRead (addr : Addr) (more : Bool) : Statement (.postedResultRead addr more) :=
  ⟨.postedResultRead addr more, rfl, rfl⟩

theorem partialTrigger (addr : Addr) (be : BitVec 4) (data : Word) (more : Bool) : Statement (.partialTrigger addr be data more) :=
  ⟨.partialTrigger addr 1 data more, rfl, rfl⟩

theorem sWordWrite (addr : Addr) (be : BitVec 4) (data : Word) (more : Bool) : Statement (.sWordWrite addr be data more) :=
  ⟨.sWordWrite addr be data more, rfl, rfl⟩

theorem unknownRequest (addr : Addr) (data : Word) (more : Bool) : Statement (.unknownRequest addr data more) :=
  ⟨.unknownRequest addr data more, rfl, rfl⟩

theorem commitPlan (more : Bool) : Statement (.commitPlan more) :=
  ⟨.commitPlan more, rfl, rfl⟩

theorem mapCarrier (carrier : Carrier) (other : Word) (more : Bool) : Statement (.mapCarrier carrier other more) :=
  ⟨.mapCarrier carrier other more, rfl, rfl⟩

theorem declare (other : Word) (more : Bool) : Statement (.declare other more) :=
  ⟨.declare other more, rfl, rfl⟩

theorem declareEmpty (other : Word) (more : Bool) : Statement (.declareEmpty other more) :=
  ⟨.declareEmpty other more, rfl, rfl⟩

theorem resumeHandling (other : Word) (more : Bool) : Statement (.resumeHandling other more) :=
  ⟨.resumeHandling other more, rfl, rfl⟩

theorem cancel (slot : BitVec 2) (other : Word) (more : Bool) : Statement (.cancel slot other more) :=
  ⟨.cancel slot other more, rfl, rfl⟩

theorem go (slot : BitVec 2) (more : Bool) : Statement (.go slot more) :=
  ⟨.go slot more, rfl, rfl⟩

theorem sendAttempt : Statement .sendAttempt :=
  ⟨.sendAttempt, rfl, rfl⟩

theorem robotAck (tag a b : Byte) : Statement (.robotAck tag a b) :=
  ⟨.robotAck tag a b, rfl, rfl⟩

theorem robotNak (tag a b : Byte) : Statement (.robotNak tag a b) :=
  ⟨.robotNak tag a b, rfl, rfl⟩

theorem robotDone (tag a b : Byte) : Statement (.robotDone tag a b) :=
  ⟨.robotDone tag a b, rfl, rfl⟩

theorem robotFault (tag a b : Byte) : Statement (.robotFault tag a b) :=
  ⟨.robotFault tag a b, rfl, rfl⟩

theorem robotBadFrame (bad : BadRobotInput) : Statement (.robotBadFrame bad) :=
  ⟨.robotBadFrame .stopBitError, rfl, rfl⟩

theorem robotFrameTimeout : Statement .robotFrameTimeout :=
  ⟨.robotFrameTimeout, rfl, rfl⟩

theorem ackTimeout : Statement .ackTimeout :=
  ⟨.ackTimeout, rfl, rfl⟩

theorem doneTimeout : Statement .doneTimeout :=
  ⟨.doneTimeout, rfl, rfl⟩

theorem presenceChange (sensor : Fin 5) (level : Bool) : Statement (.presenceChange sensor level) :=
  ⟨.presenceChange sensor level, rfl, rfl⟩

theorem debounceExpiry (sensor : Fin 5) : Statement (.debounceExpiry sensor) :=
  ⟨.debounceExpiry sensor, rfl, rfl⟩

theorem encoderTransition (axis : Axis) (phase : BitVec 2) : Statement (.encoderTransition axis phase) :=
  ⟨.encoderTransition axis phase, rfl, rfl⟩

theorem preset (more : Bool) : Statement (.preset more) :=
  ⟨.preset more, rfl, rfl⟩

theorem motionEnable (more : Bool) : Statement (.motionEnable more) :=
  ⟨.motionEnable more, rfl, rfl⟩

theorem motionDisable (more : Bool) : Statement (.motionDisable more) :=
  ⟨.motionDisable more, rfl, rfl⟩

theorem settleExpiry : Statement .settleExpiry :=
  ⟨.settleExpiry, rfl, rfl⟩

theorem moveTimeout : Statement .moveTimeout :=
  ⟨.moveTimeout, rfl, rfl⟩

theorem stageFrameEnd : Statement .stageFrameEnd :=
  ⟨.stageFrameEnd, rfl, rfl⟩

theorem interlockAssert : Statement .interlockAssert :=
  ⟨.interlockAssert, rfl, rfl⟩

theorem interlockRelease : Statement .interlockRelease :=
  ⟨.interlockRelease, rfl, rfl⟩

theorem imgTrigPulseEnd : Statement .imgTrigPulseEnd :=
  ⟨.imgTrigPulseEnd, rfl, rfl⟩

theorem coefficientWrite (k : Fin 10) (be : BitVec 4) (data : Word) (more : Bool) : Statement (.coefficientWrite k be data more) :=
  ⟨.coefficientWrite k be data more, rfl, rfl⟩

theorem alignmentCommit (more : Bool) : Statement (.alignmentCommit more) :=
  ⟨.alignmentCommit more, rfl, rfl⟩

theorem identityCheckEnd : Statement .identityCheckEnd :=
  ⟨.identityCheckEnd, rfl, rfl⟩

theorem viewRequest (more : Bool) : Statement (.viewRequest more) :=
  ⟨.viewRequest more, rfl, rfl⟩

theorem inverseDone : Statement .inverseDone :=
  ⟨.inverseDone, rfl, rfl⟩

theorem forwardDone : Statement .forwardDone :=
  ⟨.forwardDone, rfl, rfl⟩

theorem predictionDone : Statement .predictionDone :=
  ⟨.predictionDone, rfl, rfl⟩

theorem actuatorFrameEnd : Statement .actuatorFrameEnd :=
  ⟨.actuatorFrameEnd, rfl, rfl⟩

theorem fsettledRise : Statement .fsettledRise :=
  ⟨.fsettledRise, rfl, rfl⟩

theorem hsamplePulseEnd : Statement .hsamplePulseEnd :=
  ⟨.hsamplePulseEnd, rfl, rfl⟩

theorem hreadyRise : Statement .hreadyRise :=
  ⟨.hreadyRise, rfl, rfl⟩

theorem heightSampleRead (e : BitVec 16) : Statement (.heightSampleRead e) :=
  ⟨.heightSampleRead e, rfl, rfl⟩

theorem focusSettleTimeout : Statement .focusSettleTimeout :=
  ⟨.focusSettleTimeout, rfl, rfl⟩

theorem sampleTimeout : Statement .sampleTimeout :=
  ⟨.sampleTimeout, rfl, rfl⟩

theorem seed (more : Bool) : Statement (.seed more) :=
  ⟨.seed more, rfl, rfl⟩

theorem clearNode (more : Bool) : Statement (.clearNode more) :=
  ⟨.clearNode more, rfl, rfl⟩

theorem clearMap (more : Bool) : Statement (.clearMap more) :=
  ⟨.clearMap more, rfl, rfl⟩

theorem query (more : Bool) : Statement (.query more) :=
  ⟨.query more, rfl, rfl⟩

theorem sealList (n : Word) (more : Bool) : Statement (.sealList n more) :=
  ⟨.sealList 1 more, rfl, rfl⟩

theorem orderFormed : Statement .orderFormed :=
  ⟨.orderFormed, rfl, rfl⟩

theorem unsealList (more : Bool) : Statement (.unsealList more) :=
  ⟨.unsealList more, rfl, rfl⟩

theorem sealedWrite (record : BitVec 12) (k : Fin 4) (be : BitVec 4) (data : Word) (more : Bool) : Statement (.sealedWrite record k be data more) :=
  ⟨.sealedWrite record k 15 data more, rfl, rfl⟩

theorem skipDefect (record : BitVec 12) (more : Bool) : Statement (.skipDefect record more) :=
  ⟨.skipDefect record more, rfl, rfl⟩

theorem unskipDefect (record : BitVec 12) (more : Bool) : Statement (.unskipDefect record more) :=
  ⟨.unskipDefect record more, rfl, rfl⟩

theorem start (more : Bool) : Statement (.start more) :=
  ⟨.start more, rfl, rfl⟩

theorem pause (more : Bool) : Statement (.pause more) :=
  ⟨.pause more, rfl, rfl⟩

theorem resume (more : Bool) : Statement (.resume more) :=
  ⟨.resume more, rfl, rfl⟩

theorem stop (more : Bool) : Statement (.stop more) :=
  ⟨.stop more, rfl, rfl⟩

theorem abandon (more : Bool) : Statement (.abandon more) :=
  ⟨.abandon more, rfl, rfl⟩

theorem probe (more : Bool) : Statement (.probe more) :=
  ⟨.probe more, rfl, rfl⟩

theorem verdictImaged (reviewClass : BitVec 4) (index : BitVec 12) (other : Word) (more : Bool) : Statement (.verdictImaged reviewClass index other more) :=
  ⟨.verdictImaged reviewClass index other more, rfl, rfl⟩

theorem verdictReimage (reviewClass : BitVec 4) (index : BitVec 12) (other : Word) (more : Bool) : Statement (.verdictReimage reviewClass index other more) :=
  ⟨.verdictReimage reviewClass index other more, rfl, rfl⟩

theorem verdictReject (reviewClass : BitVec 4) (index : BitVec 12) (other : Word) (more : Bool) : Statement (.verdictReject reviewClass index other more) :=
  ⟨.verdictReject reviewClass index other more, rfl, rfl⟩

theorem verdictTimeout : Statement .verdictTimeout :=
  ⟨.verdictTimeout, rfl, rfl⟩

theorem openLot (more : Bool) : Statement (.openLot more) :=
  ⟨.openLot more, rfl, rfl⟩

theorem closeLot (more : Bool) : Statement (.closeLot more) :=
  ⟨.closeLot more, rfl, rfl⟩

theorem forceClose (more : Bool) : Statement (.forceClose more) :=
  ⟨.forceClose more, rfl, rfl⟩

theorem posting : Statement .posting :=
  ⟨.posting, rfl, rfl⟩

theorem consumerWrite (be : BitVec 4) (data : Word) (more : Bool) : Statement (.consumerWrite be data more) :=
  ⟨.consumerWrite be data more, rfl, rfl⟩

theorem eventWrite (be : BitVec 4) (data : Word) (more : Bool) : Statement (.eventWrite be data more) :=
  ⟨.eventWrite be data more, rfl, rfl⟩

theorem eventMaskWrite (be : BitVec 4) (data : Word) (more : Bool) : Statement (.eventMaskWrite be data more) :=
  ⟨.eventMaskWrite be data more, rfl, rfl⟩

theorem coalesceTimerExpiry : Statement .coalesceTimerExpiry :=
  ⟨.coalesceTimerExpiry, rfl, rfl⟩

theorem robotByteReceived (byte : Byte) : Statement (.robotByteReceived byte) :=
  ⟨.robotByteReceived byte, rfl, rfl⟩

end Sys2Proof.Laws.Formed
end

