-- ==== Sys2Proof/Tests/Slice0.lean ====
section
/-! SUPPORT. The model's own tests: ill-formed commands, the worked examples of the spec, and for every statement a state
and operands that meet its hypotheses. -/

namespace Sys2Proof.Tests

set_option Elab.async false

open Sys2Proof.Machine

/-! ### States to test on -/

/-- A plan with every value in its range. -/
def plan0 : Plan :=
  { handlingBase := 0x100000, stageBase := 0x101000, focusBase := 0x102000, defectBase := 0x103000
    lotBase := 0x110000, ringBase := 0x111000, capacity := 256, ringLength := 16, coalesceCount := 4
    coalesceTime := 20, maxAttempts := 2, focusSamples := 3, focusGain := 230, focusTolerance := 100
    pitch := 18750000, x0 := -150000000, y0 := -150000000, zMin := -1000, zMax := 2000, nominalZ := 50
    travelXMin := -4000000, travelXMax := 4000000, travelYMin := -4000000, travelYMax := 4000000
    arrivalWindow := 200, settleTime := 2000, moveTimeout := 500, focusSettleTimeout := 50, sampleTimeout := 10
    verdictTimeout := 1000, robotAckTimeout := 100, robotDoneTimeout := 5000, presenceDebounce := 20
    bandHeight := 10000000 }

/-- A state with that plan in force and nothing in progress. -/
def base : State :=
  { plan := some plan0, map := some plan0, planU := { standing := .adopted, work := .idle }, motion := { frame := none } }

/-- The stage wafer is wafer 10, on ST, with this progress. -/
def loaded (p : Progress) (s : State) : State :=
  { s with hand := { s.hand with
      stage := some 10, wafers := [(10, { place := .pos 52, progress := p })]
      positions := [(52, { occupant := some 10 })] } }

/-- Motion is permitted. -/
def permitted (s : State) : State := { s with motion := { s.motion with enable := true } }

/-- A sealed list of three records, all pending, in the order 1, 0, 2. -/
def sealed (s : State) : State :=
  { s with defects := { s.defects with
      recs := [(0, { x := 5, st := .pending }), (1, { x := 7, st := .pending }), (2, { st := .pending })]
      n := 3, list := .sealed, queue := [1, 0, 2], counts := [(1, 3)] } }

/-- A revisit of defect 1 is in this phase. -/
def revisiting (ph : Phase) (s : State) : State :=
  let s1 := sealed (permitted s)
  { s1 with
    defects := { s1.defects with
      recs := [(0, { x := 5, st := .pending }), (1, { x := 7, st := .active }), (2, { st := .pending })]
      queue := [0, 2], counts := [(1, 2), (2, 1)] }
    seq := { st := .running, phase := ph, current := some 1, cx := 7, fPause := true } }

/-- A focus attempt is in this loop state. -/
def attempting (l : LoopState) (k : AttemptKind) (s : State) : State :=
  { s with focus := { s.focus with
      attempt := some { x := 7, y := 0, kind := k, loop := l, pred := some { z0 := 100 }, z := some 100, sample := 1 } } }

/-- Slot 1 has a transfer of wafer 10 from slot 10 to the upper arm under way. -/
def sent (acked : Bool) (s : State) : State :=
  { s with hand := { s.hand with
      slots := [(1, { st := .sent, acked := acked, tag := 7, source := .pos 10, dest := 53, wafer := 10 })]
      wafers := [(10, { place := .inTransit, progress := .new })]
      positions := [(10, { claim := some 1 }), (53, { claim := some 1 })]
      ackTimer := if acked then none else some 0, doneTimer := if acked then some 0 else none } }

/-- The coefficients of the spec's worked examples (chapter 6). -/
def coeffs0 : Coeffs :=
  { a11 := 214748365, a12 := -214748, a21 := 214748, a22 := 214748365, bx := 1000000, bY := -250000
    c11 := 83885996, c12 := 83886, c21 := -83886, c22 := 83885996 }

/-- The next state that a command answers, if it answers one. -/
def after (c : Instr) (s : State) : Option State :=
  match exec c s with
  | .next t => some t
  | _ => none

/-! ### Ill-formed commands -/

theorem test_illformed_burst : wellFormed (.forwardedAccess 0 true [(15, 1), (15, 2), (15, 3)] false) = false := by decide
theorem test_illformed_partial_none : wellFormed (.partialTrigger 0 0 1 false) = false := by decide
theorem test_illformed_partial_all : wellFormed (.partialTrigger 0 15 1 false) = false := by decide
theorem test_illformed_ring : wellFormed (.ringRecordWrite 0 0 1 false) = false := by decide
theorem test_illformed_owned : wellFormed (.hWordWrite 0 0 1 false) = false := by decide
theorem test_illformed_sealed : wellFormed (.sealedWrite 0 0 0 1 false) = false := by decide
theorem test_illformed_seal : wellFormed (.sealList 0 false) = false := by decide
theorem test_illformed_good_byte : wellFormed (.robotBadFrame (.byte 0xA5)) = false := by decide
theorem test_illformed_good_frame : wellFormed (.robotBadFrame (.frame 2 7 0 0 9)) = false := by decide
theorem test_wellformed_bad_type : wellFormed (.robotBadFrame (.frame 6 7 0 0 13)) = true := by decide

/-! ### The spec's worked examples -/

/-- R82: the up order is (0,0), (1,0), (1,1), (0,1); a pair is written with A as its high bit. -/
theorem test_encoder_up :
    (([2, 3, 1, 0, 2] : List (BitVec 2)).foldl (fun o ph => o.bind (after (.encoderTransition .x ph))) (some base)).map
      (fun s => s.motion.x.count) = some 5 := by decide +kernel

/-- R82: one count down from 0 wraps to −1. -/
theorem test_encoder_down :
    (after (.encoderTransition .y 1) base).map (fun s => s.motion.y.count) = some 0xFFFFFFFF := by decide +kernel

/-- Chapter 6, "a defect taken to the stage". -/
theorem test_forward : forwardAnswer { base with xform := { inForce := some coeffs0, seqNo := 1 } } 12500000 (-3000000)
    = .reachable 3500600 (-847500) 1 := by decide +kernel

/-- Chapter 6, "the stage read back as a wafer position". -/
theorem test_inverse : inversePosition coeffs0 3500600 (-847500) = ((12500000, false), (-3000000, false)) := by
  decide +kernel

/-- Chapter 6, "checking the set of a 5 nm encoder". -/
theorem test_deviation : worstDeviation coeffs0 = (12, 31477382) ∧ checkPasses coeffs0 = true := by decide +kernel

/-- The same case with the sign of c12 wrong. -/
theorem test_deviation_rejected : worstDeviation { coeffs0 with c12 := -83886 } = (12, 36028731215398) ∧
    checkPasses { coeffs0 with c12 := -83886 } = false := by decide +kernel

/-- The focus map of the worked case of section 7.2, with the count of section 7.7's case. -/
def mapped (nodes : Table Node) : State := { base with focus := { nodes := nodes, base := 980 } }

def nodes0 : Table Node :=
  [(127, { height := 1200, valid := true, count := 1 }), (128, { height := 1800, valid := true, count := 1 }),
   (144, { height := 900, valid := true, count := 1 }), (145, { height := 1500, valid := true, count := 3 })]

/-- Section 7.2, "an interpolated and a partial prediction". -/
theorem test_predict : predict (mapped nodes0) plan0 12500000 (-3000000)
    = { z0 := 1346, source := .interpolated, clamped := false, cell := { i := 8, j := 7, fx := 170, fy := 215 } } := by
  decide +kernel

theorem test_predict_partial :
    (predict (mapped (nodes0.set 144 { height := 900 })) plan0 12500000 (-3000000)).z0 = 1522 := by decide +kernel

theorem test_predict_edge : (predict (mapped [(16, { height := 77, valid := true })]) plan0 160000000 (-170000000)).z0 = 77 ∧
    (predict (mapped []) plan0 160000000 (-170000000)).source = .fallback := by decide +kernel

/-- Section 7.7's case: the query, the nearest node, the learn, and the query after it. -/
theorem test_query : (predict (mapped nodes0) plan0 13000000 (-3000000)).z0 = 1363 ∧
    nearestNode (cellOf plan0 13000000 (-3000000)) = 145 := by decide +kernel

theorem test_learn : learnNode { height := 1500, valid := true, count := 3 } 1687
    = { height := 1547, valid := true, count := 4 } := by decide +kernel

theorem test_query_after_learn :
    (predict (mapped (nodes0.set 145 { height := 1547, valid := true, count := 4 })) plan0 12500000 (-3000000)).z0
      = 1373 := by decide +kernel

/-- Section 7.7's case: the step of the sample e = 380 with a gain of 230. -/
theorem test_sample_step : sampleStep 230 380 = 341 := by decide +kernel

/-- The eight records of the worked sequence of chapter 8, with their prior classes and priorities. -/
def eight : State :=
  let rec8 (x y : Int) (cls prio : Nat) : Defect :=
    { x := ofSigned x, y := ofSigned y, info := BitVec.ofNat 32 (cls + prio * 65536), st := .pending }
  { base with defects := {
      n := 8, list := .sealed, census := 0x1201
      recs := [(0, rec8 12500000 (-3000000) 2 1), (1, rec8 (-40000000) (-3500000) 2 1), (2, rec8 60000000 5000000 5 1),
        (3, rec8 (-10000000) 8000000 5 1), (4, { rec8 0 0 7 3 with st := .imaged }), (5, rec8 30000000 (-2000000) 2 1),
        (6, rec8 250000000 1000000 2 0), (7, rec8 (-20000000) 15000000 5 1)] } }

theorem test_order : formOrder eight = [4, 5, 0, 1, 3, 2, 7, 6] := by decide +kernel

theorem test_bands : band 10000000 (-3000000) = 19 ∧ band 10000000 15000000 = 21 ∧ band 10000000 (-200000001) = -1 := by
  decide

theorem test_census : censusWord eight 0 = 0x63 ∧ censusWord eight 1 = 0 ∧ censusCount eight = 4 := by decide +kernel

/-- Chapter 10's case: the lot's mean corrections. -/
theorem test_mean : meanOf 555 3 = 185 ∧ meanOf 965 4 = 241 := by decide

/-- The plan words of chapter 2's worked example, at a lot base, every other word valid. -/
def planWords (lotBase : Word) : Table Word :=
  [0x4C4B504C, 0x200000, 0x201000, 0x202000, 0x100000, lotBase, 0x300000, 1000, 2000, 4, 20, 2, 12, 230, 100, 18750000,
   0, 0, 0, 2000, 50, 0, 4000000, 0, 4000000, 200, 2000, 500, 50, 10, 1000, 100, 5000, 20, 10000000].zipIdx.map
    fun e => (e.2, e.1)

theorem test_plan_overlap : validatePlan 0x0FFFF000 (planWords 0x108000) = .refused .overlap 0x14 := by decide +kernel

theorem test_plan_valid : (match validatePlan 0x0FFFF000 (planWords 0x109000) with
    | .valid p clamps first => [p.capacity, p.ringLength, p.focusSamples, clamps, first,
        (winExtent p .defect).2, (winExtent p .ring).2]
    | .refused _ _ => []) = [992, 1024, 8, 3, 0x1C, 35840, 20480] := by decide +kernel

/-! ### One step -/

theorem test_read_after_write : readWordAt (writeWordAt [] 0x200000 15 0x12345678) 0x200000 = 0x12345678 := by
  decide +kernel

/-- Section "Words, addresses and numbers": byte lane 0 is the byte at the word's own address. -/
theorem test_byte_order : readByte (writeWordAt [] 8 15 0x12345678) 8 = 0x78 := by decide +kernel

theorem test_zero_removes : writeWordAt (writeWordAt [] 8 15 0x12345678) 8 15 0 = [] := by decide +kernel

/-- R17: a queued entry keeps its place, a new one joins the tail. -/
theorem test_put_entries : putEntries [(8, 1), (12, 2)] [(8, 7), (4, 9)] = [(8, 7), (12, 2), (4, 9)] := by decide

/-- R6: the copy takes the enabled lanes alone. -/
theorem test_lanes : mergeLanes 0x3 0xAABBCCDD 0x11223344 = 0xAABB3344 := by decide +kernel

/-- R12: a partial write of the stage control word reports PARTIAL_TRIGGER and enables nothing. -/
theorem test_partial : (after (.partialTrigger 0x101018 1 2 false) base).map
    (fun s => (s.report.events, s.motion.enable, readWordAt s.mem 0x101018)) = some (2, false, 2) := by decide +kernel

/-- R8: an owned word keeps the table's value in memory. -/
theorem test_owned : (after (.hWordWrite 0x10101C 15 0xFFFFFFFF false) base).map
    (fun s => (readWordAt s.mem 0x10101C == hWord base ⟨.stage, 0x01C⟩, s.report.events)) = some (true, 1) := by
  decide +kernel

theorem test_enable : (after (.motionEnable false) base).map (fun s => (s.motion.enable, s.queue.length))
    = some (true, stageStatus.length) := by decide +kernel

/-- R66, R68: the ORDER frame of the transfer of wafer 10 from slot 10 to the upper arm. -/
theorem test_order_frame :
    (after .sendAttempt { base with hand := {
      queue := [1], slots := [(1, { st := .queued, wafer := 10, dest := 53 })], tagCounter := 7
      wafers := [(10, { place := .pos 10, progress := .new })]
      positions := [(10, { occupant := some 10 }), (53, { reservation := some 1 })] } }).map
      (fun s => s.hand.orderFrame) = some (some [0xA5, 0x01, 7, 10, 53, 71]) := by decide +kernel

/-- R69, R71: the five bytes of an ACK after the start byte acknowledge the transfer. -/
theorem test_ack_bytes :
    (([0xA5, 0x02, 7, 0, 0, 9] : List Byte).foldl (fun o b => o.bind (after (.robotByteReceived b)))
      (some (sent false base))).map (fun s => (s.slot 1).acked) = some true := by decide +kernel

theorem test_tick : step base = .next { base with now := 1 } := by rfl

theorem test_step_front : step { base with pending := [.motionEnable false, .query false] }
    = exec (.motionEnable false) { base with pending := [.query false] } := by rfl

theorem test_no_word : State.withFetchWord base 32 7 = base ∧ decodeTableWord 32 7 = none := ⟨rfl, rfl⟩

theorem test_reset_inv : Inv State.reset = true := by decide

/-! ### Witnesses: for each statement, states and operands that meet the hypotheses of each of its clauses -/

theorem witness_StepTakesTheFrontCommand :
    (∃ (s : State) (c : Instr) (rest : List Instr), s.pending = c :: rest) ∧
    (∃ s : State, s.pending = [] ∧ s.inReset = false) :=
  ⟨⟨{ base with pending := [.planRead, .posting] }, .planRead, [.posting], rfl⟩, base, rfl, rfl⟩

theorem witness_EveryStepKeepsInv : ∃ s t : State, Inv s = true ∧ step s = .next t :=
  ⟨base, { base with now := 1 }, by decide +kernel, rfl⟩

/-- A revisit in EXPOSE with the defect's wafer on ST: it meets every law. -/
def exposed : State :=
  let s := revisiting .expose (loaded .reviewing base)
  { s with seq := { s.seq with verdictTimer := some 0 }, hand := { s.hand with prior := some .new } }

theorem witness_EveryStepKeepsTheSteps : ∃ s t : State, Lawful s = true ∧ step s = .next t :=
  ⟨base, { base with now := 1 }, by decide +kernel, rfl⟩

theorem witness_EveryStepKeepsTheTables : ∃ s t : State, Lawful s = true ∧ step s = .next t :=
  ⟨sent true base, { sent true base with now := 1 }, by decide +kernel, rfl⟩

theorem witness_EveryStepKeepsTheRevisit : ∃ s t : State, Lawful s = true ∧ step s = .next t :=
  ⟨exposed, { exposed with now := 1 }, by decide +kernel, rfl⟩

/-- A part without a plan, whose plan words are queued; the front command is a host read of one of them. -/
def bare : State :=
  let s : State := { planU := { standing := .bare, work := .idle }, motion := { frame := none } }
  { s with
    queue := wordEntries s (planStatusWords ++ (List.range 9).map capabilityWord)
    pending := [.postedResultRead 0x0FFFF090 false] }

theorem witness_EveryStepKeepsTheQueueCurrent : ∃ s : State, Lawful s = true ∧ queueCurrent s = true ∧ s.map = s.plan ∧
    (∀ c, s.pending.head? = some c → wellFormed c = true) ∧ ∃ t, step s = .next t :=
  ⟨bare, by decide +kernel, by decide +kernel, rfl, fun _ h => Option.some.inj h ▸ by decide, _, rfl⟩

/-- A write with no byte enable set; a single word; and a burst of two that crosses into the next block. -/
theorem witness_ForwardedAccessReachesMemory :
    (∃ s : State, Quiet s ∧ portOpen s = true ∧
      (([(0, 7), (0, 8)] : List (BitVec 4 × Word)).all fun e => e.1 == 0) = true) ∧
    (∃ (s : State) (addr : Addr), Quiet s ∧ memoryOpen s = true ∧
      decodeAddr s.planBase s.map (wordAligned addr.toNat) = none ∧
      ([(15, 7)] : List (BitVec 4 × Word)).drop (inFirstBlock (wordAligned addr.toNat)) = [] ∧
      ([(15, 7), (15, 8)] : List (BitVec 4 × Word)).drop (inFirstBlock (wordAligned addr.toNat)) ≠ [] ∧
      decodeAddr s.planBase s.map
        ((wordAligned addr.toNat + 4 * inFirstBlock (wordAligned addr.toNat)) % 2 ^ 28) = none) :=
  ⟨⟨base, by decide +kernel⟩, base, 0x20001F, by decide +kernel⟩

theorem witness_PWriteUpdatesItsCopy :
    (∃ (s : State) (addr : Addr) (be : BitVec 4) (w : WordRef), Quiet s ∧ portOpen s = true ∧ memoryOpen s = true ∧
      be ≠ 0 ∧ decodeAddr s.planBase s.map (wordAligned addr.toNat) = some w ∧ wordClass s.map w = .p ∧
      w ≠ consumerWord ∧ (∀ r k, k < 4 → w = recordWord r k → sealedRecord s r = false)) ∧
    (∃ (s : State) (addr : Addr) (be : BitVec 4) (w : WordRef), Quiet s ∧ portOpen s = true ∧ memoryOpen s = true ∧
      be ≠ 0 ∧ decodeAddr s.planBase s.map (wordAligned addr.toNat) = some w ∧ wordClass s.map w = .spare) :=
  ⟨⟨base, 0x101010, 3, ⟨.stage, 0x010⟩, by decide +kernel, by decide +kernel, by decide +kernel, by decide,
      by decide +kernel, by decide +kernel, by decide, fun r k _ h => by simp [recordWord] at h⟩,
    base, 0x101028, 15, ⟨.stage, 0x028⟩, by decide +kernel⟩

theorem witness_HWriteIsSubstituted :
    (∃ (s : State) (addr : Addr) (be : BitVec 4) (w : WordRef), Quiet s ∧ memoryOpen s = true ∧ be ≠ 0 ∧
      decodeAddr s.planBase s.map (wordAligned addr.toNat) = some w ∧ wordClass s.map w = .h ∧ isRingRecord w = false) ∧
    (∃ (s : State) (addr : Addr) (be : BitVec 4) (w : WordRef), Quiet s ∧ portOpen s = true ∧ be ≠ 0 ∧
      decodeAddr s.planBase s.map (wordAligned addr.toNat) = some w ∧ wordClass s.map w = .h ∧ isRingRecord w = true) :=
  ⟨⟨base, 0x10101C, 1, ⟨.stage, 0x01C⟩, by decide +kernel⟩, base, 0x111040, 8, ⟨.ring, 0x40⟩, by decide +kernel⟩

/-- A queue of sixteen entries, in which no step that needs a new entry fits. -/
def full : List (Nat × Word) := (List.range 16).map fun k => (0x101100 + 4 * k, 0)

/-- A posted result that is outstanding, with a full queue that holds its word and with an empty one; a read that contends for the
memory port with the port closed and, its word queued meanwhile, open; a P, a spare and a
T word; and an S word with the memory port closed. -/
theorem witness_HostReadsAreAnswered :
    (∃ (s : State) (addr : Addr) (w : WordRef), Quiet s ∧ portOpen s = true ∧
      decodeAddr s.planBase s.map (wordAligned addr.toNat) = some w ∧ wordClass s.map w = .h ∧
      entryFor s.queue (wordAligned addr.toNat) = some 5 ∧ earlyWord s w = true ∧ s.hostWaits = none ∧
      memoryOpen s = false) ∧
    (∀ q ∈ [full, [(0x10101C, 5)]], ∃ (s : State) (w : WordRef), Quiet s ∧ portOpen s = true ∧ s.queue = q ∧
      decodeAddr s.planBase s.map (wordAligned 0x10101C) = some w ∧ wordClass s.map w = .h ∧
      s.hostWaits = some (.hLook 0x10101C) ∧ memoryOpen s = !decide (q = full)) ∧
    (∃ (s : State) (addr : Addr) (w : WordRef), Quiet s ∧ portOpen s = true ∧
      decodeAddr s.planBase s.map (wordAligned addr.toNat) = some w ∧ wordClass s.map w = .h ∧
      entryFor s.queue (wordAligned addr.toNat) = none ∧ memoryOpen s = true) ∧
    (∀ e ∈ [((0x101010 : Addr), WClass.p), (0x101028, .spare), (0x101018, .t)], ∃ (s : State) (w : WordRef),
      Quiet s ∧ portOpen s = true ∧ decodeAddr s.planBase s.map (wordAligned e.1.toNat) = some w ∧
      wordClass s.map w = e.2 ∧ memoryOpen s = true) ∧
    (∃ (s : State) (addr : Addr) (w : WordRef), Quiet s ∧ portOpen s = true ∧
      decodeAddr s.planBase s.map (wordAligned addr.toNat) = some w ∧ wordClass s.map w = .s ∧ memoryOpen s = false) := by
  refine ⟨⟨{ base with focus := { query := some (0, 0) }, queue := (0x102940, 5) :: full.drop 1 }, 0x102940, ⟨.focus, 0x940⟩,
      by decide +kernel⟩,
    fun q hq => ⟨{ base with queue := q, hostWaits := some (.hLook 0x10101C) }, ⟨.stage, 0x01C⟩, by
      revert q; decide +kernel⟩,
    ⟨base, 0x10101C, ⟨.stage, 0x01C⟩, by decide +kernel⟩, fun e he => ?_,
    ⟨{ base with queue := full }, 0x101000, ⟨.stage, 0x000⟩, by decide +kernel⟩⟩
  simp only [List.mem_cons, List.not_mem_nil, or_false] at he
  rcases he with rfl | rfl | rfl
  · exact ⟨base, ⟨.stage, 0x010⟩, by decide +kernel⟩
  · exact ⟨base, ⟨.stage, 0x028⟩, by decide +kernel⟩
  · exact ⟨base, ⟨.stage, 0x018⟩, by decide +kernel⟩

theorem witness_WritesOfRequestAndStatusWords :
    (∃ (s : State) (addr : Addr) (be : BitVec 4) (w : WordRef), Quiet s ∧ memoryOpen s = true ∧ be ≠ 0 ∧ be ≠ 15 ∧
      decodeAddr s.planBase s.map (wordAligned addr.toNat) = some w ∧ wordClass s.map w = .t) ∧
    (∃ (s : State) (addr : Addr) (d : Word) (w : WordRef), Quiet s ∧ memoryOpen s = true ∧
      decodeAddr s.planBase s.map (wordAligned addr.toNat) = some w ∧ wordClass s.map w = .t ∧
      namesRequest w d = false) ∧
    (∃ (s : State) (addr : Addr) (be : BitVec 4) (w : WordRef), Quiet s ∧ memoryOpen s = true ∧ be ≠ 0 ∧
      decodeAddr s.planBase s.map (wordAligned addr.toNat) = some w ∧ wordClass s.map w = .s ∧ w ≠ eventWord) ∧
    (∃ (s : State) (a : Nat) (be : BitVec 4), Takes s eventWord a ∧ be ≠ 0) :=
  ⟨⟨base, 0x101018, 7, stageControl, by decide +kernel⟩, ⟨base, 0x101018, 4, stageControl, by decide +kernel⟩,
    ⟨base, 0x103084, 15, ⟨.defect, 0x084⟩, by decide +kernel⟩, base, 0x11001C, 1, by decide +kernel⟩

/-- A step that fits and one that does not, made with nothing waiting and behind a waiting step; a waiting step that does
not fit, and one that shows a change made at once and does; a drain with a host access of each kind waiting that is
preferred to it, and with none, with a read of a queued word, and with the queue full. -/
theorem witness_StepsAreTakenAndDrained :
    (∀ behind, ∃ (op : StepOp) (s t : State), tryStep behind op s = some t ∧ adopting s = false ∧
      keepsOrder op s = false) ∧
    (∃ (s : State) (op : StepOp), s.made = [] ∧ [] ∉ s.waiting ∧
      tryStep (someWaits s) op { s with made := [[]] } = none) ∧
    (∃ (s : State) (op : StepOp), s.inReset = false ∧ s.made = [] ∧ [] ∉ s.waiting ∧
      (s.waiting.headD []).head? = some op ∧
      tryStep false op { s with waiting := (s.waiting.headD []).tail :: s.waiting.tail } = none) ∧
    (∃ (s : State) (op : StepOp) (cs : List Unshown), s.inReset = false ∧ s.made = [] ∧ [] ∉ s.waiting ∧
      op = .publish cs ∧ s.waiting.headD [] = [op] ∧ s.sequel = [] ∧ s.named = [] ∧ (cs.map (·.word)).Nodup ∧
      Room s cs.length ∧ (s.waiting.headD []).head? = some op) ∧
    (∀ w ∈ [HostWait.memory, .loadCycle, .hRead 0x101024, .hLook 0x101020], ∃ (s : State) (e : Nat × Word), Quiet s ∧
      s.queue.head? = some e ∧ s.hostWaits = some w ∧ entryFor s.queue 0x101024 = none ∧ memoryOpen s = true) ∧
    (∀ w ∈ [none, some (HostWait.hRead 0x101020)], ∃ (s : State) (e : Nat × Word), Quiet s ∧
      s.queue.head? = some e ∧ s.hostWaits = w ∧ entryFor s.queue 0x101020 ≠ none ∧ memoryOpen s = true) ∧
    (∃ (s : State) (e : Nat × Word), Quiet s ∧ s.queue.head? = some e ∧ s.hostWaits ≠ none ∧ memoryOpen s = false) :=
  let u : StepOp := .publish [{ word := stallWord, bits := 0xFFFF, old := 0 }]
  ⟨fun behind => ⟨.stall, { base with queue := [(0x11100C, 0)] }, _, by cases behind <;> rfl, by decide +kernel⟩,
    ⟨{ base with queue := full }, u, by decide +kernel⟩,
    ⟨{ base with queue := full, waiting := [[u], [.finishHost]] }, u, by decide +kernel⟩,
    ⟨{ base with waiting := [[u], [.finishHost]] }, u, _, by decide +kernel, rfl, by decide, rfl, rfl, rfl, rfl, by decide,
      by decide, rfl⟩,
    fun w hw => ⟨{ base with queue := [(0x10101C, 5), (0x101020, 6)], hostWaits := some w }, (0x10101C, 5), by
      revert w; decide +kernel⟩,
    fun w hw => ⟨{ base with queue := [(0x10101C, 5), (0x101020, 6)], hostWaits := w }, (0x10101C, 5), by
      revert w; decide +kernel⟩,
    { base with queue := full, hostWaits := some .memory }, (0x101100, 0), by decide +kernel⟩

theorem witness_ResetClearsEveryBlock :
    ∃ c : Instr, c ≠ .resetAssert ∧ ∀ pins, c ≠ .resetRelease pins := ⟨.planRead, nofun, nofun⟩

/-- The plan words of `planWords` have been read at start-up, or for a commit. -/
def planned (standing : Standing) (lotBase : Word) : State :=
  { planU := { standing := standing, work := .reading 63, copies := planWords lotBase } }

/-- Its plan block's reads: with an entry queued or a host access waiting, the last plan word, the first word after the
plan words, and the last read of a plan that is refused. -/
theorem witness_PlanReadsAreTaken :
    (∃ s : State, Quiet s ∧ s.queue ≠ []) ∧
    (∃ s : State, Quiet s ∧ s.queue = [] ∧ memoryOpen s = true ∧ s.hostWaits ≠ none) ∧
    (∃ s : State, Quiet s ∧ s.planU.work = .reading 0 ∧ s.queue = [] ∧ s.hostWaits ≠ none ∧ memoryOpen s = false) ∧
    (∀ k ∈ [0, 34, 35, 62], ∃ s : State, Quiet s ∧ k < 63 ∧ s.planU.work = .reading k ∧ s.queue = [] ∧
      s.hostWaits = none) ∧
    (∃ (s : State) (r : PlanResult) (off : Nat), Quiet s ∧ s.planU.work = .reading 63 ∧
      s.planU.standing = .starting ∧ s.plan = none ∧ s.queue = [] ∧
      validatePlan s.planBase s.planU.copies = .refused r off) :=
  ⟨⟨{ base with queue := full }, by decide +kernel⟩, ⟨{ base with hostWaits := some .memory }, by decide +kernel⟩,
    ⟨{ planU := { standing := .starting, work := .reading 0 }, hostWaits := some .memory }, by decide +kernel⟩,
    fun k hk => ⟨{ planU := { work := .reading k } }, by revert k; decide +kernel⟩,
    planned .starting 0x108000, .overlap, 0x14, by decide +kernel⟩

theorem witness_PlansAreValidated : ∃ (planBase : Nat) (copies : Table Word) (p : Plan) (clamps first : Nat),
    validatePlan planBase copies = .valid p clamps first :=
  ⟨0x0FFFF000, planWords 0x109000, _, _, _, rfl⟩

/-- The plan that `planWords` gives, with its clamp count and its first clamp. -/
theorem planWords_valid : ∃ p c f, validatePlan 0x0FFFF000 (planWords 0x109000) = .valid p c f := ⟨_, _, _, rfl⟩

theorem witness_CommitIsTaken :
    (∃ (s : State) (a : Nat), Takes s commitWord a ∧ ¬(s.planU.standing = .committing ∨ WorkOpen s)) ∧
    (∃ (s : State) (a : Nat), Takes s commitWord a ∧ WorkOpen s) ∧
    (∃ (s : State) (a : Nat), Takes s commitWord a ∧ s.planU.standing = .committing) ∧
    (∃ s : State, Inv s = true ∧ s.inReset = false ∧ s.made = [] ∧ [] ∉ s.waiting ∧ s.planU.work = .draining ∧
      s.queue = [] ∧ s.waiting = []) ∧
    (∃ s : State, Inv s = true ∧ s.inReset = false ∧ s.made = [] ∧ [] ∉ s.waiting ∧ s.planU.work = .draining ∧
      ¬(s.queue = [] ∧ s.waiting = [])) ∧
    (∃ (s : State) (r : PlanResult) (off : Nat), Quiet s ∧ s.planU.standing = .committing ∧
      s.planU.work = .reading 63 ∧ s.queue = [] ∧ s.hostWaits = none ∧
      validatePlan s.planBase s.planU.copies = .refused r off) ∧
    (∃ (s : State) (p : Plan) (clamps first : Nat), Quiet s ∧ s.planU.standing = .committing ∧
      s.planU.work = .reading 63 ∧ s.queue = [] ∧ s.hostWaits = none ∧
      validatePlan s.planBase s.planU.copies = .valid p clamps first) ∧
    (∃ (s : State) (p : Plan) (clamps first : Nat), Quiet s ∧ s.planU.standing = .committing ∧
      s.planU.work = .awaiting p clamps first ∧ s.focus.query ≠ none) ∧
    (∃ (s : State) (p : Plan) (clamps first : Nat), Quiet s ∧ s.planU.standing = .committing ∧
      s.planU.work = .awaiting p clamps first ∧ s.queue = [] ∧ s.xform.view = none ∧ s.focus.query = none ∧ WorkOpen s) := by
  obtain ⟨p, c, f, h⟩ := planWords_valid
  let awaiting : PlanUnit := { standing := .committing, work := .awaiting plan0 0 0 }
  exact ⟨⟨base, 0x0FFFF08C, by decide +kernel⟩, ⟨{ base with lot := { st := .opened } }, 0x0FFFF08C, by decide +kernel⟩,
    ⟨{ base with planU := { standing := .committing, work := .draining } }, 0x0FFFF08C, by decide +kernel⟩,
    ⟨{ base with planU := { standing := .committing, work := .draining } }, by decide +kernel⟩,
    ⟨{ base with planU := { standing := .committing, work := .draining }, waiting := [[.stall]] }, by decide +kernel⟩,
    ⟨planned .committing 0x108000, .overlap, 0x14, by decide +kernel⟩,
    ⟨planned .committing 0x109000, p, c, f, by decide +kernel, rfl, rfl, rfl, rfl, h⟩,
    ⟨{ base with planU := awaiting, focus := { query := some (0, 0) } }, plan0, 0, 0, by decide +kernel⟩,
    { base with planU := awaiting, seq := { st := .ready } }, plan0, 0, 0, by decide +kernel⟩

/-- A commit at its adoption moment with a fault report staged, and with the slot empty and two kinds pending, the first of
which is staged, each with a debounce time that has just elapsed; a start-up; and the last adoption step. -/
theorem witness_AdoptionClearsAndKeeps :
    (∃ (s : State) (p : Plan) (clamps first : Nat), Quiet s ∧ s.queue = [] ∧
      s.planU.work = .awaiting p clamps first ∧ s.planU.standing = .committing ∧
      (∃ copies, validatePlan s.planBase copies = .valid p clamps first) ∧ s.xform.view = none ∧ s.focus.query = none ∧
      ¬WorkOpen s ∧ s.report.faultSlot.isSome = true ∧
      ∃ t0, s.debounceTimer 1 = some t0 ∧ t0 + 1000 * p.presenceDebounce ≤ s.now) ∧
    (∃ (s : State) (p : Plan) (clamps first : Nat), Quiet s ∧ s.queue = [] ∧
      s.planU.work = .awaiting p clamps first ∧ s.planU.standing = .committing ∧
      (∃ copies, validatePlan s.planBase copies = .valid p clamps first) ∧ s.xform.view = none ∧ s.focus.query = none ∧
      ¬WorkOpen s ∧ s.report.faultSlot = none ∧ (s.faultEntry 2).pending = true ∧ (s.faultEntry 4).pending = true ∧
      ∀ j, j < 2 → (s.faultEntry j).pending = false) ∧
    (∃ (s : State) (p : Plan) (clamps first : Nat), Quiet s ∧ s.queue = [] ∧ s.planU.work = .reading 63 ∧
      s.planU.standing = .starting ∧
      validatePlan s.planBase s.planU.copies = .valid p clamps first) ∧
    (∃ (s : State) (k : Nat), s.inReset = false ∧ s.made = [] ∧ s.sequel = [] ∧ s.named = [] ∧
      s.waiting = [[.adoption k]] ∧ k + 1 = adoptCount ∧ s.queue.length < 16 ∧ s.focus.clearing = 1 ∧
      s.focus.learns = [] ∧ s.focus.seqPlace = false ∧ s.focus.queryPlace = false) := by
  obtain ⟨p, c, f, h⟩ := planWords_valid
  let r : Record := { kind := 5, qualifier := 0, wafer := 63, w1 := 0, w2 := 0, w3 := 0 }
  let u : PlanUnit := { standing := .committing, work := .awaiting p c f }
  let at_ (report : Report) : State :=
    { base with planU := u, report := report, now := 1000 * p.presenceDebounce, hand := { debounce := [(1, .running 0)] } }
  have closed (report : Report) : ¬WorkOpen (at_ report) := by
    rintro (h | h | ⟨k, hk, h | h⟩)
    · exact nomatch h
    · exact h rfl
    · exact nomatch h
    · exact nomatch h
  exact ⟨⟨at_ { faultSlot := some r }, p, c, f, ⟨rfl, rfl, rfl, rfl, rfl, rfl⟩, rfl, rfl, rfl,
      ⟨_, h⟩, rfl, rfl, closed _, rfl, 0, rfl, by simp [at_]⟩,
    ⟨at_ { pendingFaults := [(2, { pending := true }), (4, { pending := true })] }, p, c, f, ⟨rfl, rfl, rfl, rfl, rfl, rfl⟩,
      rfl, rfl, rfl, ⟨_, h⟩, rfl, rfl, closed _, rfl, rfl, rfl, fun j hj => by
        obtain rfl | rfl : j = 0 ∨ j = 1 := by omega
        all_goals rfl⟩,
    ⟨planned .starting 0x109000, p, c, f, by decide +kernel, rfl, rfl, rfl, h⟩,
    { base with waiting := [[.adoption (adoptCount - 1)]], focus := { clearing := 1 } }, adoptCount - 1, by decide +kernel⟩

/-- A wafer of carrier B is on ST; and a MAP of carrier B of which the steps from slot `i` on are waiting, the last of them
behind a queue with one free entry. -/
theorem witness_MapTakesTheSlotsInOrder :
    (∃ (s : State) (a : Nat), Takes s handlingControl a ∧ ∃ i, i < 25 ∧
      (s.wafer (25 + i)).progress ≠ .unmapped ∧ (s.wafer (25 + i)).place ≠ .pos (25 + i)) ∧
    (∃ (s : State) (a : Nat), Takes s handlingControl a ∧ ¬(∃ i, i < 25 ∧
      (((s.wafer (25 + i)).progress ≠ .unmapped ∧ (s.wafer (25 + i)).place ≠ .pos (25 + i))
        ∨ (s.posn (25 + i)).claim ≠ none ∨ (s.posn (25 + i)).reservation ≠ none)) ∧
      s.hand.mapPattern.getLsbD 1 = true ∧ s.hand.mapPattern.getLsbD 0 = false) ∧
    (∀ i ∈ [1, 24, 25], ∃ s : State, Inv s = true ∧ s.inReset = false ∧ s.made = [] ∧ s.sequel = [] ∧ s.named = [] ∧
      s.waiting = [[.mapSlot .b i 2, .finishHost]] ∧ s.hostBusy = true ∧ (i < 25 → Room s 3) ∧ Room s 1) :=
  ⟨⟨{ base with hand := { wafers := [(49, { place := .pos 52, progress := .loaded })] } }, 0x100440, by decide +kernel⟩,
    ⟨{ base with hand := { mapPattern := 2 } }, 0x100440, by decide +kernel⟩,
    fun i hi => ⟨{ base with
        waiting := [[.mapSlot .b i 2, .finishHost]], hostBusy := true, queue := full.drop (if i = 25 then 1 else 3) },
      by revert i; decide +kernel⟩⟩

/-- A state whose declare word names this wafer and target, with wafer 10 suspect, wafer 11 in its slot and the
reservation of slot 1 at an uncertain LL. -/
def declaring (w p : Nat) : State :=
  { base with hand := {
      declareWord := BitVec.ofNat 32 (w + 256 * p)
      wafers := [(10, { suspect := true, progress := .new }), (11, { place := .pos 11, progress := .new })]
      positions := [(11, { occupant := some 11 }), (53, { uncertain := true, reservation := some 1 })] } }

/-- The same with wafer 10 recorded as the stage wafer, in this state of the sequencer. -/
def declaringStage (w p : Nat) (st : SeqState) : State :=
  let s := declaring w p
  { s with hand := { s.hand with stage := some 10 }, seq := { st := st } }

theorem witness_DeclaresPutTheTables :
    (∀ e ∈ [(50, 53), (10, 55), (10, 254)], ∃ (s : State) (a : Nat), Takes s handlingControl a ∧
      s.hand.declareWord = BitVec.ofNat 32 (e.1 + 256 * e.2) ∧ (50 ≤ e.1 ∨ (55 ≤ e.2 ∧ e.2 ≠ 255))) ∧
    (∃ (s : State) (a : Nat), Takes s handlingControl a ∧ getField s.hand.declareWord 0 8 = 11 ∧
      getField s.hand.declareWord 8 8 = 255 ∧ ¬((s.wafer 11).progress = .unmapped ∨ (s.wafer 11).suspect = true)) ∧
    (∃ (s : State) (a : Nat), Takes s handlingControl a ∧ getField s.hand.declareWord 0 8 = 10 ∧
      getField s.hand.declareWord 8 8 = 49 ∧ (s.wafer 10).suspect = true) ∧
    (∃ (s : State) (a : Nat), Takes s handlingControl a ∧ getField s.hand.declareWord 0 8 = 10 ∧
      getField s.hand.declareWord 8 8 = 50 ∧ (s.wafer 10).suspect = true ∧ (s.posn 50).claim ≠ none) ∧
    (∃ (s : State) (a : Nat), Takes s handlingControl a ∧ getField s.hand.declareWord 0 8 = 9 ∧
      getField s.hand.declareWord 8 8 = 52 ∧ (s.wafer 9).progress = .unmapped ∧ (s.posn 52).occupant = none ∧
      (s.posn 52).claim = none ∧ s.hand.stage ≠ none ∧ s.hand.stage ≠ some 9) ∧
    (∃ (s : State) (a : Nat), Takes s handlingControl a ∧ getField s.hand.declareWord 0 8 = 10 ∧
      getField s.hand.declareWord 8 8 = 255 ∧ (s.wafer 10).suspect = true ∧ s.hand.stage = some 10 ∧
      s.seq.st = .running) ∧
    (∀ p ∈ [53, 10], ∃ (s : State) (a : Nat), Takes s handlingControl a ∧ getField s.hand.declareWord 0 8 = 10 ∧
      getField s.hand.declareWord 8 8 = p ∧ (s.wafer 10).suspect = true ∧ (s.posn p).occupant = none ∧
      (s.posn p).claim = none ∧ p ≠ 52 ∧ s.hand.stage ≠ some 10) ∧
    (∃ (s : State) (a : Nat), Takes s handlingControl a ∧ getField s.hand.declareWord 0 8 = 10 ∧
      getField s.hand.declareWord 8 8 = 52 ∧ (s.wafer 10).suspect = true ∧ (s.posn 52).occupant = none ∧
      (s.posn 52).claim = none ∧ s.hand.stage = some 10) ∧
    (∃ (s : State) (a : Nat), Takes s handlingControl a ∧ getField s.hand.declareWord 0 8 = 9 ∧
      getField s.hand.declareWord 8 8 = 255 ∧ (s.wafer 9).progress = .unmapped ∧ s.hand.stage ≠ some 9) ∧
    (∃ (s : State) (a : Nat), Takes s handlingControl a ∧ 55 ≤ getField s.hand.declareWord 8 8) ∧
    (∃ (s : State) (a : Nat), Takes s handlingControl a ∧ getField s.hand.declareWord 8 8 = 52 ∧ s.hand.stage ≠ none) ∧
    (∃ (s : State) (a : Nat), Takes s handlingControl a ∧ getField s.hand.declareWord 8 8 = 53 ∧
      (s.posn 53).occupant = none ∧ (s.posn 53).claim = none) := by
  refine ⟨fun e he => ⟨declaring e.1 e.2, 0x100440, ?_⟩, ⟨declaring 11 255, 0x100440, by decide +kernel⟩,
    ⟨declaring 10 49, 0x100440, by decide +kernel⟩, ?_, ⟨declaringStage 9 52 .idle, 0x100440, by decide +kernel⟩,
    ⟨declaringStage 10 255 .running, 0x100440, by decide +kernel⟩, fun p hp => ⟨declaring 10 p, 0x100440, ?_⟩,
    ⟨declaringStage 10 52 .idle, 0x100440, by decide +kernel⟩, ⟨declaring 9 255, 0x100440, by decide +kernel⟩,
    ⟨declaring 0 55, 0x100440, by decide +kernel⟩, ⟨declaringStage 0 52 .idle, 0x100440, by decide +kernel⟩,
    declaring 0 53, 0x100440, by decide +kernel⟩
  · revert e; decide +kernel
  · exact ⟨{ declaring 10 50 with hand := { (declaring 10 50).hand with positions := [(50, { claim := some 0 })] } },
      0x100440, by decide +kernel⟩
  · revert p; decide +kernel

/-- Wafer 49 is declared onto ST, while a lot is OPEN or none is; and a transfer of wafer 10 onto ST is DONE. -/
theorem witness_LoadsMakeTheStageWafer :
    (∀ st ∈ [LotState.opened, .closed], ∃ (s : State) (a w : Nat), Quiet s ∧ s.queue = [] ∧ s.plan = some plan0 ∧
      s.lot.st = st ∧ Takes s handlingControl a ∧ getField s.hand.declareWord 0 8 = w ∧
      getField s.hand.declareWord 8 8 = 52 ∧ w < 50 ∧
      ((s.wafer w).progress = .unmapped ∨ (s.wafer w).suspect = true) ∧ s.hand.stage = none ∧
      (s.posn 52).occupant = none ∧ (s.posn 52).claim = none) ∧
    (∃ (s : State) (k src : Nat), Quiet s ∧ s.queue = [] ∧ s.plan = some plan0 ∧ s.hand.rx = .hunt ∧
      s.sentSlot = some k ∧ (s.slot k).source = .pos src ∧ (s.slot k).dest = 52 ∧ src ≠ 52 ∧ src < 55 ∧
      (s.slot k).wafer < 50) :=
  ⟨fun st hs => ⟨{ declaring 49 52 with lot := { st := st, tag := 7 } }, 0x100440, 49, by revert st; decide +kernel⟩,
    { base with hand := { slots := [(3, { st := .sent, acked := true, source := .pos 54, dest := 52, wafer := 10 })] } },
    3, 54, by decide +kernel⟩

/-- A request is in progress that concerns wafer `w`, which has this lot tag, with three free entries in the queue. -/
def tagged (w : Nat) (tag : BitVec 16) : State :=
  { base with hostBusy := true, queue := full.drop 3, hand := { wafers := [(w, { lotTag := tag, suspect := true })] } }

/-- Wafer 10 leaves ST for the upper arm by a DONE, or is declared, with visited defects, at PA, its own slot or ABSENT; and the waiting steps of a departure. -/
theorem witness_DepartureClearsTheStage :
    planPlaced base.planBase plan0 = true ∧
    (∃ (s : State) (w k : Nat), Quiet s ∧ s.queue = [] ∧ s.hand.stage = some w ∧ s.plan = some plan0 ∧
      s.planBase = base.planBase ∧ s.hand.rx = .hunt ∧ s.sentSlot = some k ∧ (s.slot k).source = .pos 52 ∧ (s.slot k).dest ≠ 52 ∧
      (s.slot k).dest < 55 ∧ (s.slot k).wafer = w) ∧
    (∀ q ∈ [50, 10], ∃ (s : State) (w a : Nat), Quiet s ∧ s.queue = [] ∧ s.hand.stage = some w ∧ s.plan = some plan0 ∧
      s.planBase = base.planBase ∧
      Takes s handlingControl a ∧ getField s.hand.declareWord 8 8 = q ∧ getField s.hand.declareWord 0 8 = w ∧ w < 50 ∧
      (s.wafer w).suspect = true ∧ (s.wafer w).progress ≠ .unmapped ∧ s.seq.st ≠ .running ∧ s.seq.st ≠ .probing ∧
      q < 55 ∧ (50 ≤ q ∨ q = w) ∧ q ≠ 52 ∧ (s.posn q).occupant = none ∧ (s.posn q).claim = none) ∧
    (∃ (s : State) (w a : Nat), Quiet s ∧ s.queue = [] ∧ s.hand.stage = some w ∧ s.plan = some plan0 ∧
      s.planBase = base.planBase ∧
      Takes s handlingControl a ∧ getField s.hand.declareWord 8 8 = 255 ∧ getField s.hand.declareWord 0 8 = w ∧ w < 50 ∧
      (s.wafer w).suspect = true ∧ (s.wafer w).progress ≠ .unmapped ∧ s.seq.st ≠ .running ∧ s.seq.st ≠ .probing) ∧
    (∀ op ∈ [[StepOp.departTransform []], [.departMotion], [.departFocus], [.clearNodes 0 false], [.clearNodes 36 false],
        [.departureEnd, .finishHost]], ∃ s : State, Inv s = true ∧ s.inReset = false ∧ s.made = [] ∧ s.sequel = [] ∧
      s.named = [] ∧ s.plan = some plan0 ∧ s.waiting = [op] ∧ Room s 8 ∧ 1 < s.focus.clearing) ∧
    (∃ s : State, someWaits s = true) := by
  refine ⟨by decide +kernel, ⟨{ sealed base with hand := {
      stage := some 10, slots := [(0, { st := .sent, acked := true, source := .pos 52, dest := 54, wafer := 10 })]
      wafers := [(10, { place := .inTransit, progress := .reviewing, visited := 2 })] } }, 10, 0, by decide +kernel⟩,
    fun q hq => ⟨declaringStage 10 q .halted, 10, 0x100440, ?_⟩, ⟨declaringStage 10 255 .done, 10, 0x100440,
    by decide +kernel⟩, fun op _ => ⟨{ base with waiting := [op], focus := { clearing := 37 } }, ⟨show Inv base = true by decide +kernel,
      rfl, rfl, rfl, rfl, rfl, rfl, show Room base 8 by decide, show 1 < 37 by decide⟩⟩,
    { base with waiting := [[.select]] }, by decide⟩
  revert q; decide +kernel

/-- The end of a departure declared to ABSENT, of the first and the last wafer, with a lot tag and without. -/
theorem witness_DepartureClearsTheStage_absent : ∀ e ∈ [(0, (0 : BitVec 16)), (0, 7), (49, 0), (49, 7)],
    ∀ ops ∈ [([.departureEnd, .declareStep e.1 255, .finishHost] : Task), [.declareStep e.1 255, .finishHost]], ∃ s : State,
      Inv s = true ∧ s.inReset = false ∧ s.made = [] ∧ s.sequel = [] ∧ s.named = [] ∧ s.plan = some plan0 ∧
      (s.wafer e.1).lotTag = e.2 ∧ s.waiting = [ops] ∧ Room s 3 ∧
      hasEntry s.queue ((wordAddr s.planBase s.plan (waferStateWord e.1)).getD 0) = false :=
  fun e he ops ho => ⟨{ tagged e.1 e.2 with waiting := [ops] }, by revert e ops; decide +kernel⟩

/-- The mismatch of an empty ST has persisted. -/
def missing (s : State) : State :=
  { s with hand := { s.hand with
      stage := some 10, wafers := [(10, { place := .pos 52, progress := .reviewing })]
      positions := [(52, { occupant := some 10 })], debounce := [(2, .running 0)] } }

/-- A change of a sensor at a compared position has no hypothesis but a quiet state; the debounce time of PA and of ST has
elapsed, with a lot OPEN and without; that of ST in SELECT, in TARGET, in RESOLVE and in a staging wait; and that of PA behind
a full queue. -/
theorem witness_PresenceIsDebounced :
    (∃ (s : State) (k : Fin 5), Quiet s ∧ s.compared (50 + k.val) = true ∧ s.debounce k = .running 0) ∧
    (∀ k ∈ [(0 : Fin 5), 2], ∀ st ∈ [LotState.noLot, .opened], ∃ (s : State) (t0 : Nat), Quiet s ∧ Room s 10 ∧
      s.debounceTimer k = some t0 ∧ s.compared (50 + k.val) = true ∧ s.lot.st = st ∧ (k.val = 2 → ¬SeqEngaged s) ∧
      s.plan = some plan0 ∧ (st = .opened → faultCounts s = true)) ∧
    (∀ ph ∈ [Phase.select, .target], ∃ (s : State) (t0 : Nat), Quiet s ∧ Room s 12 ∧ s.debounceTimer 2 = some t0 ∧
      s.compared 52 = true ∧ s.seq.st = .running ∧ s.seq.phase = ph) ∧
    (∀ st ∈ [SeqState.running, .paused], ∃ (s : State) (t0 : Nat), Quiet s ∧ Room s 12 ∧ s.debounceTimer 2 = some t0 ∧
      s.compared 52 = true ∧ s.seq.st = st ∧ s.seq.phase = .resolve ∧ (st = .paused → s.seq.reason = .ring) ∧
      s.focus.attempt = none) ∧
    (∃ (s : State) (k : Fin 5) (t0 : Nat), Quiet s ∧ s.debounceTimer k = some t0 ∧ s.compared (50 + k.val) = true ∧
      s.queue.length = 16 ∧ s.plan ≠ none ∧
      hasEntry s.queue ((wordAddr s.planBase s.plan handlingStatus).getD 0) = false) :=
  ⟨⟨{ base with hand := { debounce := [(1, .running 0)] } }, 1, by decide +kernel⟩,
    fun k hk st hs => ⟨{ base with
        lot := { st := st }
        hand := { debounce := [(k.val, .running 0)], positions := [(50 + k.val, { occupant := some 10 })] } }, 0, by
      revert k st; decide +kernel⟩,
    fun ph hp => ⟨{ missing base with seq := { st := .running, phase := ph } }, 0, by revert ph; decide +kernel⟩,
    fun st hs => ⟨{ missing base with seq := { st := st, phase := .resolve, reason := .ring } }, 0, by
      revert st; decide +kernel⟩,
    { base with queue := full, hand := { debounce := [(0, .running 0)], positions := [(50, { occupant := some 10 })] } }, 0, 0,
    by decide +kernel⟩

/-- GO of slot 3 with these copies: wafer 10 in its slot, wafer 12 suspect, wafer 11 on ST, wafer 13 on LL; a transfer of
wafer 14 to PA is queued in slot 0, and one of wafer 15 to the upper arm is under way in slot 1. -/
def going (w d : Word) (st : SlotState) (q : SeqState) : State :=
  { base with
    seq := { st := q }
    hand := {
      slots := [(0, { st := .queued, wafer := 14, dest := 50 }), (1, { st := .sent, wafer := 15, dest := 53, source := .pos 15 }),
        (3, { st := st, waferCopy := w, destCopy := d })]
      wafers := [(10, { place := .pos 10, progress := .new }), (11, { place := .pos 52, progress := .loaded }),
        (12, { suspect := true, progress := .new }), (13, { place := .pos 51, progress := .new }),
        (14, { place := .pos 14, progress := .new }), (15, { place := .inTransit, progress := .new })]
      positions := [(10, { occupant := some 10 }), (14, { occupant := some 14 }), (50, { reservation := some 0 }),
        (51, { occupant := some 13 }), (52, { occupant := some 11 }), (53, { claim := some 1 }),
        (54, { uncertain := decide (d = 54 ∧ w = 10) })] } }

/-- The refusals of a GO in their order, and the two accepted forms: a wafer in its slot and, with the sequencer aside, the
stage wafer. -/
theorem witness_GoIsJudged :
    (∃ (s : State) (a : Nat), Takes s (goWord 3) a ∧ (s.slot 3).st = .sent) ∧
    (∀ e ∈ [((50 : Word), (53 : Word), Code.badWafer), (9, 53, .badWafer), (12, 53, .badWafer), (14, 51, .waferBusy),
        (15, 51, .waferBusy), (10, 55, .badDest), (10, 10, .badDest), (10, 11, .notHome), (10, 54, .destUncertain),
        (10, 50, .destReserved), (10, 53, .destReserved), (10, 51, .destOccupied), (11, 54, .stageBusy), (13, 13, .ok)],
      ∃ (s : State) (a : Nat), Takes s (goWord 3) a ∧ (s.slot 3).waferCopy = e.1 ∧ (s.slot 3).destCopy = e.2.1 ∧
        goCheck s 3 = e.2.2) ∧
    (∃ (s : State) (a : Nat), Takes s (goWord 3) a ∧ (s.slot 3).waferCopy = 11 ∧ s.seq.st = .done ∧ goCheck s 3 = .ok) := by
  refine ⟨⟨going 10 54 .sent .idle, 0x100438, by decide +kernel⟩, fun e he =>
    ⟨going e.1 e.2.1 .done .paused, 0x100438, ?_⟩, going 11 54 .failed .done, 0x100438, by decide +kernel⟩
  revert e; decide +kernel

theorem witness_HandlingIsResumedAndCancelled :
    (∃ (s : State) (a : Nat), Takes s handlingControl a ∧ s.hand.held = true ∧
      ∃ i k, i < 5 ∧ (s.posn (50 + i)).uncertain = true ∧ (s.posn (50 + i)).reservation = some k ∧
        (s.slot k).st = .queued) ∧
    (∃ (s : State) (a : Nat), Takes s handlingControl a ∧ ¬s.hand.held = true) ∧
    (∃ (s : State) (k : BitVec 2) (a : Nat), Takes s handlingControl a ∧ (s.slot k.toNat).st = .queued) ∧
    (∃ (s : State) (k : BitVec 2) (a : Nat), Takes s handlingControl a ∧ (s.slot k.toNat).st ≠ .queued) :=
  ⟨⟨{ base with hand := {
        held := true, slots := [(1, { st := .queued, dest := 53 })]
        positions := [(53, { uncertain := true, reservation := some 1 })] } }, 0x100440, by decide +kernel,
      by decide, 3, 1, by decide +kernel⟩,
    ⟨base, 0x100440, by decide +kernel⟩,
    ⟨{ base with hand := { queue := [1], slots := [(1, { st := .queued, dest := 53 })] } }, 1, 0x100440,
      by decide +kernel⟩,
    sent false base, 1, 0x100440, by decide +kernel⟩

/-- The state of `test_order_frame`, with this place and doubt of wafer 10, this upper arm and this state of the
sequencer. -/
def toSend (v : Wafer) (arm : Position) (q : SeqState) : State :=
  { base with
    seq := { st := q }
    hand := {
      queue := [1], slots := [(1, { st := .queued, wafer := 10, dest := 53 })], tagCounter := 7
      wafers := [(10, v)], positions := [(10, { occupant := some 10 }), (53, arm)] } }

/-- A MAP in progress, with a queued transfer of a wafer outside the carrier and the queue full, and with one of the first
and of the last wafer of the carrier. -/
theorem witness_SendAttemptsAreMade_inMap :
    let mapping (c : Carrier) (i w : Nat) (q : List (Nat × Word)) : State :=
      { base with
        queue := q, hostBusy := true, waiting := [[.mapSlot c i 7, .finishHost]]
        hand := {
          queue := [1], slots := [(1, { st := .queued, wafer := w, dest := 53 })]
          wafers := [(w, { place := .pos w, progress := .new })]
          positions := [(w, { occupant := some w }), (53, { reservation := some 1 })] } }
    let ready (s : State) : Prop := Inv s = true ∧ s.inReset = false ∧ s.made = [] ∧ s.sequel = [] ∧ s.named = [] ∧
      s.hand.held = false ∧ s.sentSlot = none ∧ s.motion.interlock = false ∧ s.report.handSlot = none ∧
      s.hand.headWaits = false ∧ s.hand.queue.head? = some 1
    (∀ c, ∀ w ∈ (match c with | .a => [25, 49] | .b => [0, 24]),
      let s := mapping c 3 w full
      ready s ∧ s.queue.length = 16 ∧ s.plan ≠ none ∧ (s.wafer w).place ≠ .pos 52 ∧
        hasEntry s.queue ((wordAddr s.planBase s.plan (slotWord 1)).getD 0) = false) ∧
    (∀ c, ∀ w ∈ (match c with | .a => [0, 24] | .b => [25, 49]),
      let s := mapping c 3 w []
      ready s ∧ (s.wafer w).place = .pos w ∧ (s.wafer w).progress ≠ .unmapped ∧ (s.wafer w).suspect = false ∧
        (s.posn 53).uncertain = false ∧ (s.posn 53).occupant = none) :=
  ⟨fun c => by cases c <;> decide +kernel, fun c => by cases c <;> decide +kernel⟩

theorem witness_SendAttemptsAreMade :
    (∃ s : State, Quiet s ∧ s.hand.queue ≠ [] ∧ s.hand.held = true) ∧
    (∃ s : State, Quiet s ∧ s.hand.queue ≠ [] ∧ s.hand.headWaits = true ∧ s.seq.st = .running) ∧
    (∀ e ∈ [(({ suspect := true, progress := .new } : Wafer), ({ reservation := some 1 } : Position), SeqState.idle),
        ({ place := .pos 10, progress := .new }, { reservation := some 1, uncertain := true }, .idle),
        ({ place := .pos 10, progress := .new }, { reservation := some 1, occupant := some 9 }, .idle),
        ({ place := .pos 52, progress := .loaded }, { reservation := some 1 }, .running),
        ({ place := .pos 52, progress := .loaded }, { reservation := some 1 }, .ready),
        ({ place := .pos 10, progress := .new }, { reservation := some 1 }, .running)],
      ∃ (s : State) (k : Nat), Quiet s ∧ Room s 4 ∧ s.hand.held = false ∧ s.sentSlot = none ∧
        s.motion.interlock = false ∧ s.report.handSlot = none ∧ s.hand.queue ≠ [] ∧ s.hand.headWaits = false ∧
        s.hand.queue.head? = some k ∧ s.wafer (s.slot k).wafer = e.1 ∧ s.posn (s.slot k).dest = e.2.1 ∧
        s.seq.st = e.2.2) := by
  refine ⟨⟨{ toSend {} {} .idle with hand := { (toSend {} {} .idle).hand with held := true } }, by decide +kernel⟩,
    ⟨{ toSend {} {} .running with hand := { (toSend {} {} .running).hand with headWaits := true } }, by decide +kernel⟩,
    fun e he => ⟨toSend e.1 e.2.1 e.2.2, 1, ?_⟩⟩
  revert e; decide +kernel

theorem witness_RepliesAndTimeoutsEndTheTransfer : ∀ acked : Bool, ∃ (s : State) (k src : Nat), Quiet s ∧ Room s 9 ∧
    s.lot.st ≠ .opened ∧ s.sentSlot = some k ∧ (s.slot k).source = .pos src ∧ src ≠ (s.slot k).dest ∧
    s.hand.rx = .hunt ∧ (s.slot k).acked = acked ∧ s.plan = some plan0 ∧
    (if acked then s.hand.doneTimer = some 0 else s.hand.ackTimer = some 0) :=
  fun acked => ⟨sent acked base, 1, 10, by cases acked <;> decide +kernel⟩

/-- Neither end is ST; and a wafer that is not the stage wafer leaves ST. -/
theorem witness_DoneCompletesTheTransfer :
    (∃ (s : State) (k src : Nat), Quiet s ∧ Room s 8 ∧ s.hand.rx = .hunt ∧ s.sentSlot = some k ∧
      (s.slot k).source = .pos src ∧ src ≠ (s.slot k).dest ∧ (s.slot k).dest ≠ 52 ∧ src ≠ 52) ∧
    (∃ (s : State) (k : Nat), Quiet s ∧ Room s 8 ∧ s.hand.rx = .hunt ∧ s.sentSlot = some k ∧
      (s.slot k).source = .pos 52 ∧ (s.slot k).dest ≠ 52 ∧ s.hand.stage ≠ some (s.slot k).wafer) :=
  ⟨⟨sent true base, 1, 10, by decide +kernel⟩,
    { base with hand := { slots := [(0, { st := .sent, source := .pos 52, dest := 54, wafer := 10 })] } }, 0,
    by decide +kernel⟩

theorem witness_ReceiverFramesAndDiscards :
    (∃ s : State, Quiet s ∧ s.hand.rx = .hunt ∧ ∀ tag : Byte, ∀ k, s.sentSlot = some k → (s.slot k).tag ≠ tag) ∧
    (∃ (s : State) (bs : List Byte) (l : Nat), Quiet s ∧ s.hand.rx = .frame bs l ∧ bs.length < 4) ∧
    (∃ (t g x y c : Byte), c ≠ t + g + x + y ∨ t.toNat < 2 ∨ 5 < t.toNat) ∧
    (∃ (s : State) (k : Nat), Quiet s ∧ s.hand.rx = .hunt ∧ s.sentSlot = some k ∧ (s.slot k).acked = true) :=
  ⟨⟨base, by decide +kernel, rfl, fun _ _ h => nomatch h⟩,
    ⟨{ base with hand := { rx := .frame [2, 7] 0 } }, [2, 7], 0, by decide +kernel⟩, ⟨6, 7, 0, 0, 13, by decide⟩,
    sent true base, 1, by decide +kernel⟩

/-- The move record is in this state for this target of a revisit or a probe in MOVE or SETTLE, with its timers running. -/
def timing (m : MoveState) (g : Int × Int) (s : State) : State :=
  { s with
    motion := { s.motion with move := m, active := some g, settleTimer := some 3, moveTimer := some 1 }
    seq := { s.seq with target := some g } }

/-- A probe of site (7, −7) is in this phase. -/
def probing (ph : Phase) (s : State) : State :=
  { permitted s with seq := { s.seq with
      st := .probing, phase := ph, prior := some (.done, .noReason), px := 7, py := -7 } }

/-- No settle time. -/
def unsettled (s : State) : State := { s with plan := some { plan0 with settleTime := 0 } }

/-- A transition up, down and to the phase last seen, at rest; up in a move outside and inside the arrival window, in
SETTLING outside and inside it, also with the queue full, and in MOVE with no settle time; and both channels at rest. -/
theorem witness_EncoderTransitionsAreJudged :
    (∃ (s : State) (ph : BitVec 2), Quiet s ∧ Room s 5 ∧ (s.motion.encoder .x).phase = 0 ∧ ph = 2 ∧
      moving s.motion = false ∧ (s.motion.encoder .y).phase = 3 ∧ (s.motion.encoder .y).count = 0xFFFFFFFF) ∧
    (∀ e ∈ [(MoveState.moving, ((202 : Int), (0 : Int)), false), (.moving, (201, 0), true), (.settling, (201, 0), true),
        (.settling, (202, 0), false)],
      ∃ s : State, Quiet s ∧ Room s 5 ∧ s.motion.move = e.1 ∧ s.motion.active = some e.2.1 ∧
        (s.motion.encoder .x).phase = 0 ∧ (s.motion.encoder .x).count = 0 ∧ s.plan = some plan0 ∧ s.seq.st = .running ∧
        s.seq.phase = .move ∧ decide (((1 : Int) - e.2.1.1).natAbs ≤ plan0.arrivalWindow) = e.2.2) ∧
    (∀ e ∈ [(MoveState.moving, ((201 : Int), (0 : Int)), true), (.settling, (202, 0), false)],
      ∃ s : State, Quiet s ∧ s.queue.length = 16 ∧ s.plan = some plan0 ∧
        hasEntry s.queue ((wordAddr s.planBase s.plan ⟨.stage, 0x01C⟩).getD 0) = false ∧ s.motion.move = e.1 ∧
        s.motion.active = some e.2.1 ∧ (s.motion.encoder .x).phase = 0 ∧ (s.motion.encoder .x).count = 0 ∧
        decide (((1 : Int) - e.2.1.1).natAbs ≤ plan0.arrivalWindow) = e.2.2) ∧
    (∀ st ∈ [SeqState.running, .probing], ∃ (s : State) (p : Plan), Quiet s ∧ Room s 5 ∧ s.plan = some p ∧
      p.settleTime = 0 ∧ s.motion.move = .moving ∧ s.motion.active = some (7, 0) ∧ s.seq.st = st ∧ s.seq.phase = .move ∧
      s.motion.active = s.seq.target ∧ Permitted s) ∧
    (∃ s : State, Quiet s ∧ Room s 2 ∧ (s.motion.encoder .y).phase = 0 ∧ (s.motion.encoder .y).faults = 65535 ∧
      s.lot.st ≠ .opened ∧ ¬((s.seq.st = .running ∨ s.seq.st = .probing) ∧ activePhase s.seq = true) ∧
      moving s.motion = false) := by
  refine ⟨⟨{ base with motion := { y := { phase := 3, count := 0xFFFFFFFF } } }, 2, by decide +kernel⟩,
    fun e he => ⟨timing e.1 e.2.1 (revisiting .move base), ?_⟩,
    fun e he => ⟨timing e.1 e.2.1 (revisiting .move { base with queue := full }), ?_⟩, fun st hs => ?_,
    { base with motion := { y := { faults := 65535 } } }, by decide +kernel⟩
  · revert e; decide +kernel
  · revert e; decide +kernel
  · simp only [List.mem_cons, List.not_mem_nil, or_false] at hs
    rcases hs with rfl | rfl
    · exact ⟨unsettled (timing .moving (7, 0) (revisiting .move base)), _, by decide +kernel, by decide +kernel, rfl,
        by decide +kernel⟩
    · exact ⟨unsettled (timing .moving (7, 0) (probing .move base)), _, by decide +kernel, by decide +kernel, rfl,
        by decide +kernel⟩

/-- A revisit and a probe in a phase, with the focus attempt that the phase has. -/
def inPhase (ph : Phase) (k : AttemptKind) : State :=
  let s := match k with | .revisit => revisiting ph base | .probe => probing ph base
  if ph = .focus then attempting .awaitSettle k s
  else if ph = .move then timing .moving (7, 0) s
  else s

theorem inPhase_attempt (ph : Phase) (k : AttemptKind) (h : ph ∈ [Phase.move, .settle, .focus, .expose]) :
    AttemptByPhase (inPhase ph k) := by
  simp only [List.mem_cons, List.not_mem_nil, or_false] at h
  rcases h with rfl | rfl | rfl | rfl <;> cases k <;>
    first
    | exact .inl ⟨rfl, _, rfl, rfl⟩
    | exact .inr ⟨nofun, rfl⟩

/-- Both channels change in each phase of a revisit, with a pause pending, and of a probe. -/
theorem witness_EncoderTransitionsAreJudged_faults :
    (∀ ph ∈ [Phase.move, .settle, .focus, .expose], ∃ (s : State) (d : Nat), Quiet s ∧ s.lot.st ≠ .opened ∧
      (s.motion.encoder .x).phase = 0 ∧ s.plan = some plan0 ∧ Revisiting s d ∧ s.seq.phase = ph ∧
      activePhase s.seq = true ∧ AttemptByPhase s ∧ PauseAlone s.seq ∧ s.report.seqSlot = none ∧ s.queue = []) ∧
    (∀ ph ∈ [Phase.move, .settle, .focus], ∃ s : State, Quiet s ∧ s.lot.st ≠ .opened ∧ (s.motion.encoder .x).phase = 0 ∧
      s.seq.st = .probing ∧ s.seq.phase = ph ∧ activePhase s.seq = true ∧ AttemptByPhase s ∧ s.queue = []) := by
  refine ⟨fun ph hp => ?_, fun ph hp => ?_⟩
  · have h := inPhase_attempt ph .revisit (by revert ph; decide)
    obtain ⟨a, b⟩ : (Quiet (inPhase ph .revisit) ∧ (inPhase ph .revisit).lot.st ≠ .opened ∧
        ((inPhase ph .revisit).motion.encoder .x).phase = 0 ∧ (inPhase ph .revisit).plan = some plan0 ∧
        Revisiting (inPhase ph .revisit) 1 ∧ (inPhase ph .revisit).seq.phase = ph ∧
        activePhase (inPhase ph .revisit).seq = true) ∧ PauseAlone (inPhase ph .revisit).seq ∧
        (inPhase ph .revisit).report.seqSlot = none ∧ (inPhase ph .revisit).queue = [] := by
      clear h; revert ph; decide +kernel
    exact ⟨_, 1, a.1, a.2.1, a.2.2.1, a.2.2.2.1, a.2.2.2.2.1, a.2.2.2.2.2.1, a.2.2.2.2.2.2, h, b⟩
  · have h := inPhase_attempt ph .probe (by revert ph; decide)
    obtain ⟨a, b⟩ : (Quiet (inPhase ph .probe) ∧ (inPhase ph .probe).lot.st ≠ .opened ∧
        ((inPhase ph .probe).motion.encoder .x).phase = 0 ∧ (inPhase ph .probe).seq.st = .probing ∧
        (inPhase ph .probe).seq.phase = ph ∧ activePhase (inPhase ph .probe).seq = true) ∧
        (inPhase ph .probe).queue = [] := by
      clear h; revert ph; decide +kernel
    exact ⟨_, a.1, a.2.1, a.2.2.1, a.2.2.2.1, a.2.2.2.2.1, a.2.2.2.2.2, h, b⟩

theorem witness_StageControlsAreTaken :
    (∀ st ∈ [SeqState.running, .probing], ∃ (s : State) (a : Nat), Takes s stageControl a ∧ s.seq.st = st) ∧
    (∃ (s : State) (a : Nat), Takes s stageControl a ∧ s.seq.st ≠ .running ∧ s.seq.st ≠ .probing ∧
      s.motion.interlock = false ∧ moving s.motion = false ∧ s.motion.enable = false) ∧
    (∃ (s : State) (a : Nat), Takes s stageControl a ∧ s.motion.interlock = true) ∧
    (∃ (s : State) (a : Nat), Takes s stageControl a ∧ s.motion.enable = true ∧ ¬SeqEngaged s ∧
      s.focus.attempt = none ∧ moving s.motion = false) :=
  ⟨fun st hs => ⟨{ base with seq := { st := st } }, 0x101018, by revert st; decide +kernel⟩,
    ⟨base, 0x101018, by decide +kernel⟩, ⟨{ base with motion := { interlock := true } }, 0x101018, by decide +kernel⟩,
    { base with motion := { enable := true } }, 0x101018, by decide +kernel⟩

/-- SETTLING ends in a revisit with a head of the queue to prefetch, while a view and a query wait, and without one, and in
a probe; a probe's move times out. -/
theorem witness_MoveTimersEndTheMove :
    (∃ s : State, Quiet s ∧ Room s 7 ∧ s.plan = some plan0 ∧ s.seq.phase = .settle ∧ s.motion.active = s.seq.target ∧
      s.motion.settleTimer = some 3 ∧ s.motion.move = .settling ∧ Permitted s ∧ s.seq.st = .running ∧
      s.seq.outstanding = none ∧ s.xform.viewPlace = true ∧ s.focus.queryPlace = true ∧ s.focus.query ≠ none ∧
      s.defects.queue.head? = some 0) ∧
    (∃ s : State, Quiet s ∧ Room s 7 ∧ s.plan = some plan0 ∧ s.seq.phase = .settle ∧ s.motion.active = s.seq.target ∧
      s.motion.settleTimer = some 3 ∧ s.motion.move = .settling ∧ Permitted s ∧ s.seq.st = .running ∧
      s.seq.outstanding = none ∧ s.defects.queue = []) ∧
    (∃ s : State, Quiet s ∧ Room s 7 ∧ s.plan = some plan0 ∧ s.seq.phase = .settle ∧ s.motion.active = s.seq.target ∧
      s.motion.settleTimer = some 3 ∧ s.motion.move = .settling ∧ Permitted s ∧ s.seq.st = .probing) ∧
    (∃ s : State, Quiet s ∧ Room s 7 ∧ s.plan = some plan0 ∧ s.seq.phase = .move ∧ s.motion.active = s.seq.target ∧
      s.motion.moveTimer = some 1 ∧ moving s.motion = true ∧ s.seq.st = .probing ∧ s.focus.attempt = none) :=
  let s1 := timing .settling (7, 0) (revisiting .settle base)
  ⟨⟨{ s1 with xform := { viewPlace := true }, focus := { query := some (1, 2), queryPlace := true } }, by decide +kernel⟩,
    ⟨{ s1 with defects := { s1.defects with queue := [] } }, by decide +kernel⟩,
    ⟨timing .settling (7, -7) (probing .settle base), by decide +kernel⟩,
    timing .moving (7, -7) (probing .move base), by decide +kernel⟩

theorem witness_FramesAndPulsesEnd :
    (∃ (s : State) (f : StageFrame), Quiet s ∧ Room s 2 ∧ s.motion.frame = some f ∧ s.motion.heldMove = none) ∧
    (∃ (s : State) (f : StageFrame), Quiet s ∧ Room s 2 ∧ s.motion.frame = some f ∧ s.motion.heldMove = some (5, -5)) ∧
    (∃ s : State, Quiet s ∧ Room s 2 ∧ s.motion.trigPulse = some 0 ∧ s.motion.trigWait = false ∧
      s.focus.hsample = some 0) ∧
    (∃ (s : State) (f : ActuatorFrame), Quiet s ∧ Room s 2 ∧ s.focus.frame = some f ∧ s.focus.waitingFrame = none ∧
      s.focus.attempt = none) ∧
    (∃ (s : State) (f : ActuatorFrame) (b : Attempt), Quiet s ∧ Room s 2 ∧ s.focus.frame = some f ∧
      s.focus.waitingFrame = none ∧ s.focus.attempt = some b ∧ b.loop = .awaitSettle ∧ b.ending = false ∧
      s.focus.settleTimer = none) ∧
    (∃ (s : State) (f : ActuatorFrame), Quiet s ∧ Room s 2 ∧ s.focus.frame = some f ∧ s.focus.waitingFrame = some 9) :=
  let f : StageFrame := { move := false, bytes := [0x11], began := 0 }
  let g : ActuatorFrame := { bytes := [0x20], began := 0 }
  ⟨⟨{ base with motion := { frame := some f } }, f, by decide +kernel⟩,
    ⟨{ base with motion := { frame := some f, heldMove := some (5, -5) } }, f, by decide +kernel⟩,
    ⟨{ base with motion := { trigPulse := some 0 }, focus := { hsample := some 0 } }, by decide +kernel⟩,
    ⟨{ base with focus := { frame := some g } }, g, by decide +kernel⟩,
    ⟨attempting .awaitSettle .probe { base with focus := { frame := some g } }, g, _, by decide +kernel, by decide, rfl,
      rfl, rfl, rfl, rfl, rfl⟩,
    { base with focus := { frame := some g, waitingFrame := some 9 } }, g, by decide +kernel⟩

theorem witness_InterlockWithdrawsPermission :
    (∃ s : State, Quiet s ∧ Room s 2 ∧ s.motion.interlock = false ∧ ¬SeqEngaged s ∧ s.focus.attempt = none ∧
      moving s.motion = false) ∧
    (∃ s : State, Quiet s ∧ Room s 2 ∧ s.motion.interlock = true) :=
  ⟨⟨permitted base, by decide +kernel⟩, { base with motion := { interlock := true } }, by decide +kernel⟩

theorem witness_AbortsEndTheRevisit :
    (∀ ph ∈ [Phase.move, .settle, .focus, .expose], ∃ (s : State) (d a : Nat), Quiet s ∧ s.queue = [] ∧
      s.lot.st ≠ .opened ∧ AttemptByPhase s ∧ Revisiting s d ∧ s.seq.phase = ph ∧ activePhase s.seq = true ∧
      s.motion.interlock = false ∧ s.motion.enable = true ∧ Takes s stageControl a ∧ s.debounceTimer 2 = some 0 ∧
      s.compared 52 = true) ∧
    (∀ ph ∈ [Phase.target, .move, .settle, .focus], ∃ (s : State) (a : Nat), Quiet s ∧ s.queue = [] ∧
      s.lot.st ≠ .opened ∧ AttemptByPhase s ∧ s.seq.st = .probing ∧ s.seq.phase = ph ∧ s.seq.current = none ∧
      s.seq.verdictTimer = none ∧ s.motion.interlock = false ∧ s.motion.enable = true ∧ Takes s stageControl a ∧
      s.debounceTimer 2 = some 0 ∧ s.compared 52 = true) := by
  refine ⟨fun ph hp => ?_, fun ph hp => ?_⟩
  · have h : AttemptByPhase (missing (inPhase ph .revisit)) := inPhase_attempt ph .revisit hp
    obtain ⟨a, b⟩ : (let s := missing (inPhase ph .revisit)
        (Quiet s ∧ s.queue = [] ∧ s.lot.st ≠ .opened) ∧ Revisiting s 1 ∧ s.seq.phase = ph ∧ activePhase s.seq = true ∧
          s.motion.interlock = false ∧ s.motion.enable = true ∧ Takes s stageControl 0x101018 ∧
          s.debounceTimer 2 = some 0 ∧ s.compared 52 = true) := by
      clear h; revert ph; decide +kernel
    exact ⟨_, 1, 0x101018, a.1, a.2.1, a.2.2, h, b⟩
  · have h : AttemptByPhase (missing (inPhase ph .probe)) := by
      simp only [List.mem_cons, List.not_mem_nil, or_false] at hp
      rcases hp with rfl | hp
      · exact .inr ⟨nofun, rfl⟩
      · exact inPhase_attempt ph .probe (by rcases hp with rfl | rfl | rfl <;> decide)
    obtain ⟨a, b⟩ : (let s := missing (inPhase ph .probe)
        (Quiet s ∧ s.queue = [] ∧ s.lot.st ≠ .opened) ∧ s.seq.st = .probing ∧ s.seq.phase = ph ∧ s.seq.current = none ∧
          s.seq.verdictTimer = none ∧ s.motion.interlock = false ∧ s.motion.enable = true ∧
          Takes s stageControl 0x101018 ∧ s.debounceTimer 2 = some 0 ∧ s.compared 52 = true) := by
      clear h; revert ph; decide +kernel
    exact ⟨_, 0x101018, a.1, a.2.1, a.2.2, h, b⟩

theorem witness_CoefficientsAreLoaded :
    (∀ k : Fin 10, ∃ (s : State) (be : BitVec 4) (a : Nat), Takes s (coefficientWord k.val) a ∧ be ≠ 0) ∧
    (∃ (s : State) (a : Nat), Takes s alignmentCommitWord a ∧ s.xform.pendingCommit ≠ none) ∧
    (∃ (s : State) (a : Nat), Takes s alignmentCommitWord a ∧ s.xform.pendingCommit = none ∧
      s.xform.loadPos ≠ .at 10) ∧
    (∃ (s : State) (a : Nat), Takes s alignmentCommitWord a ∧ s.xform.pendingCommit = none ∧
      s.xform.loadPos = .at 10 ∧ ∀ w, s.hand.stage = some w → ¬AlignReady s w) ∧
    (∃ (s : State) (a w : Nat), Takes s alignmentCommitWord a ∧ s.hand.stage = some w ∧ s.xform.pendingCommit = none ∧
      s.xform.loadPos = .at 10 ∧ AlignReady s w ∧ s.xform.service = none ∧ s.xform.viewPlace = true) ∧
    (∃ (s : State) (a w : Nat), Takes s alignmentCommitWord a ∧ s.hand.stage = some w ∧ s.xform.pendingCommit = none ∧
      s.xform.loadPos = .at 10 ∧ AlignReady s w ∧ s.xform.service ≠ none) :=
  let complete (s : State) : State := { s with xform := { s.xform with loadPos := .at 10 } }
  ⟨fun k => ⟨base, 15, 0x101040 + 4 * k.val, by revert k; decide +kernel⟩,
    ⟨{ base with xform := { pendingCommit := some { wafer := 10, candidate := coeffs0 } } }, 0x101068, by decide +kernel⟩,
    ⟨base, 0x101068, by decide +kernel⟩,
    ⟨complete (loaded .new base), 0x101068, by decide +kernel, rfl, rfl, fun w h => Option.some.inj h ▸ by decide +kernel⟩,
    ⟨complete { loaded .loaded base with xform := { viewPlace := true } }, 0x101068, 10, by decide +kernel⟩,
    complete { loaded .reviewing base with xform := { service := some .inverse } }, 0x101068, 10, by decide +kernel⟩

/-- An identity check of these coefficients is being served. -/
def checking (c : Coeffs) (s : State) : State :=
  { s with xform := { service := some (.check false), pendingCommit := some { wafer := 10, candidate := c } } }

/-- A request of the sequencer and a view wait behind the check. -/
theorem witness_IdentityCheckSettlesTheCommit : ∃ (s : State) (pc : PendingCommit), Quiet s ∧ Room s 7 ∧
    s.xform.service = some (.check false) ∧ s.xform.pendingCommit = some pc ∧ s.xform.seqPlace ≠ none ∧
    s.xform.viewPlace = true ∧ (worstDeviation pc.candidate).2 ≤ 2 ^ 38 ∧
    AlignReady s pc.wafer ∧ ¬AlignReady { s with seq := { st := .halted } } pc.wafer ∧
    2 ^ 38 < (worstDeviation { coeffs0 with c12 := -83886 }).2 :=
  let s := checking coeffs0 (loaded .loaded base)
  ⟨{ s with xform := { s.xform with seqPlace := some (7, 0), viewPlace := true } }, { wafer := 10, candidate := coeffs0 },
    by decide +kernel⟩

theorem witness_ViewsAreConverted :
    (∃ (s : State) (a : Nat), Takes s viewRequestWord a ∧ s.xform.view ≠ none) ∧
    (∃ (s : State) (a : Nat), Takes s viewRequestWord a ∧ s.xform.view = none ∧ s.xform.inForce = none) ∧
    (∃ (s : State) (a : Nat), Takes s viewRequestWord a ∧ s.xform.view = none ∧ s.xform.inForce = some coeffs0 ∧
      s.xform.service = none) ∧
    (∃ (s : State) (a : Nat) (o : EngineOp), Takes s viewRequestWord a ∧ s.xform.view = none ∧
      s.xform.inForce = some coeffs0 ∧ s.xform.service = some o) ∧
    (∃ (s : State) (v : View), Quiet s ∧ Room s 5 ∧ s.xform.service = some .inverse ∧ s.xform.view = some v ∧
      s.xform.seqPlace ≠ none ∧ s.xform.commitPlace = true) :=
  let v : View := { xCount := 3500600, yCount := 0, coeffs := coeffs0, seqNo := 1 }
  ⟨⟨{ base with xform := { view := some v } }, 0x10107C, by decide +kernel⟩, ⟨base, 0x10107C, by decide +kernel⟩,
    ⟨{ base with xform := { inForce := some coeffs0 } }, 0x10107C, by decide +kernel⟩,
    ⟨{ base with xform := { inForce := some coeffs0, service := some (.check true) } }, 0x10107C, .check true,
      by decide +kernel⟩,
    { base with xform := { service := some .inverse, view := some v, seqPlace := some (7, 0), commitPlace := true } }, v,
    by decide +kernel⟩

/-- The selected defect is the head of the order queue, and the sequencer's forward request has this answer. -/
def answered (f : FwdAnswer) (pause : Bool) : State :=
  { permitted (sealed base) with
    xform := { service := some (.forward f false) }
    seq := { st := .running, phase := .target, sel := some 1, cx := 7, outstanding := some .target, fPause := pause } }

/-- With this settle time, a view waiting for the engine. -/
def crowded (settleTime : Nat) (s : State) : State :=
  { s with plan := some { plan0 with settleTime := settleTime }, xform := { s.xform with viewPlace := true } }

/-- The range's corner and one beyond it; a discarded answer; a prefetch; an answer that TARGET has waited for, in a revisit
and in a probe; a target at the travel limit and one count outside the arrival window, and targets at which the stage stands,
with a settle time and without; STALE, and a reached quota, at the activation; with a pause pending, a reachable and an
unreachable one; NO_TRANSFORM; and the answers to a probe, whose x is at the range's limit and one beyond it. -/
theorem witness_ForwardAnswersAreTaken :
    (∃ (s : State) (x y : Int) (p : Plan), s.plan = some p ∧ x = 200000001 ∧ y = -200000000 ∧ s.xform.inForce = none) ∧
    (∃ (s : State) (x y : Int) (p : Plan) (c : Coeffs), s.plan = some p ∧ s.xform.inForce = some c ∧ x = 200000000 ∧
      y = -200000000) ∧
    (∃ (s : State) (f : FwdAnswer), Quiet s ∧ s.xform.service = some (.forward f true)) ∧
    (∀ f ∈ [FwdAnswer.reachable 5 6 1, .unreachable 1, .noTransform], ∃ (s : State) (i : Nat), Quiet s ∧ Room s 2 ∧
      s.plan = some plan0 ∧ s.seq.targetWait = false ∧ s.xform.service = some (.forward f false) ∧
      s.seq.outstanding = some (.prefetch i)) ∧
    (∀ st ∈ [SeqState.running, .probing], ∃ (s : State) (d : Nat), Quiet s ∧ Room s 2 ∧ s.plan = some plan0 ∧
      s.xform.service = some (.forward .noTransform false) ∧ s.seq.targetWait = true ∧
      s.seq.outstanding = some .discarded ∧ s.seq.phase = .target ∧ s.seq.st = st ∧ s.seq.sel = some d ∧
      s.seq.target = none ∧ s.motion.shadow = none) ∧
    (∀ e ∈ [((201 : Int), 2000), (200, 2000), (200, 0)], ∃ (s : State) (p : Plan) (d : Nat), Quiet s ∧ Room s 8 ∧
      s.plan = some p ∧ p.settleTime = e.2 ∧ s.xform.service = some (.forward (.reachable e.1 (-200) 1) false) ∧
      s.xform.viewPlace = true ∧ s.seq.targetWait = false ∧ s.seq.outstanding = some .target ∧ s.seq.st = .running ∧
      s.seq.phase = .target ∧ s.seq.sel = some d ∧ NoFlags s.seq ∧ (s.defect d).st = .pending ∧
      s.defects.queue.head? = some d ∧ quotaReached s (s.defect d).priorClass = false ∧ Permitted s ∧
      withinTravel p e.1 (-200) = true ∧ s.motion.x.count = 0 ∧ s.motion.y.count = 0 ∧ p.arrivalWindow = 200) ∧
    withinTravel plan0 201 (-4000000) = true ∧
    (∃ (s : State) (d h : Nat), Quiet s ∧ Room s 4 ∧ s.plan = some plan0 ∧
      s.xform.service = some (.forward (.reachable 5 6 1) false) ∧ s.xform.commitPlace = true ∧ s.seq.targetWait = false ∧
      s.seq.outstanding = some .target ∧ s.seq.st = .running ∧ s.seq.phase = .target ∧ s.seq.sel = some d ∧
      NoFlags s.seq ∧ (s.defect d).st = .skipped ∧ s.defects.queue.head? = some h ∧
      quotaReached s (s.defect d).priorClass = false ∧ quotaReached s (s.defect h).priorClass = false ∧
      s.motion.shadow = none) ∧
    (∃ (s : State) (d : Nat), Quiet s ∧ s.queue = [] ∧ s.plan = some plan0 ∧
      s.xform.service = some (.forward (.reachable 5 6 1) false) ∧ s.seq.targetWait = false ∧
      s.seq.outstanding = some .target ∧ s.seq.st = .running ∧ s.seq.phase = .target ∧ s.seq.sel = some d ∧
      NoFlags s.seq ∧ (s.defect d).st = .pending ∧ s.defects.queue = [d] ∧
      quotaReached s (s.defect d).priorClass = true ∧ s.report.seqSlot = none ∧ s.lot.st ≠ .opened) ∧
    (∀ f ∈ [FwdAnswer.reachable 5 6 1, .unreachable 1, .noTransform], ∃ (s : State) (d : Nat), Quiet s ∧ s.queue = [] ∧
      s.plan = some plan0 ∧ s.xform.service = some (.forward f false) ∧ s.seq.targetWait = false ∧
      s.seq.outstanding = some .target ∧ s.seq.st = .running ∧ s.seq.phase = .target ∧ s.seq.sel = some d ∧
      PauseAlone s.seq ∧ (s.defect d).st = .pending ∧ s.defects.queue.head? = some d ∧ s.report.seqSlot = none ∧
      s.lot.st ≠ .opened) ∧
    (∀ e ∈ [(FwdAnswer.reachable 201 (-200) 1, 2000), (.reachable 200 (-200) 1, 2000), (.reachable 200 (-200) 1, 0),
        (.unreachable 1, 0), (.noTransform, 0)],
      ∀ x ∈ [(200000000 : Int), 200000001], ∃ (s : State) (p : Plan), Quiet s ∧ Room s 8 ∧
      s.plan = some p ∧ p.settleTime = e.2 ∧ s.xform.service = some (.forward e.1 false) ∧ s.xform.viewPlace = true ∧
      s.seq.targetWait = false ∧ s.seq.outstanding = some .probe ∧ s.seq.st = .probing ∧ s.seq.phase = .target ∧
      s.seq.px = x ∧ Permitted s ∧ withinTravel p 201 (-200) = true ∧ s.motion.x.count = 0 ∧ p.arrivalWindow = 200) := by
  let stale := sealed base
  refine ⟨⟨base, _, _, plan0, rfl, rfl, rfl, rfl⟩,
    ⟨{ base with xform := { inForce := some coeffs0 } }, _, _, plan0, coeffs0, rfl, rfl, rfl, rfl⟩,
    ⟨{ base with xform := { service := some (.forward .noTransform true) } }, .noTransform, by decide +kernel⟩,
    fun f hf => ⟨{ base with xform := { service := some (.forward f false) }, seq := { outstanding := some (.prefetch 2) } },
      2, by revert f; decide +kernel⟩,
    fun st hs => ⟨{ answered .noTransform false with seq := {
        st := st, phase := .target, sel := some 1, cx := 7, outstanding := some .discarded, targetWait := true } }, 1, ?_⟩,
    fun e he => ⟨crowded e.2 (answered (.reachable e.1 (-200) 1) false), { plan0 with settleTime := e.2 }, 1, ?_⟩,
    by decide +kernel,
    ⟨{ answered (.reachable 5 6 1) false with
        xform := { service := some (.forward (.reachable 5 6 1) false), commitPlace := true }
        defects := { stale.defects with recs := (1, { st := .skipped }) :: stale.defects.recs, queue := [0, 2] } }, 1, 0, ?_⟩,
    ⟨{ answered (.reachable 5 6 1) false with defects := {
        n := 2, list := .sealed, recs := [(0, { st := .imaged }), (1, { x := 7, st := .pending })], queue := [1]
        quotas := [(0, 1)], imaged := [(0, 1)], counts := [(1, 1), (3, 1)] } }, 1, ?_⟩,
    fun f hf => ⟨answered f true, 1, by revert f; decide +kernel⟩,
    fun e he x hx => ⟨crowded e.2 { answered e.1 false with seq := {
        st := .probing, phase := .target, outstanding := some .probe, prior := some (.done, .noReason), px := x } },
      { plan0 with settleTime := e.2 }, ?_⟩⟩
  · revert st; decide +kernel
  · revert e; decide +kernel
  · decide +kernel
  · decide +kernel
  · revert e x; decide +kernel

/-- A prediction of 100 for the attempt in progress has been served, with this actuator setpoint and level of FSETTLED; a
query waits. -/
def served (setpoint : Option Word) (settled : Bool) : State :=
  let s := attempting .predicting .revisit base
  { s with focus := { s.focus with
      service := some { forQuery := false, pred := { z0 := 100 } }, setpoint := setpoint, fsettled := settled
      query := some (3, 4), queryPlace := true } }

/-- An attempt in the loop state `l`, as `attempting` has it. -/
def attempt (l : LoopState) (k : AttemptKind) : Attempt :=
  { x := 7, y := 0, kind := k, loop := l, pred := some { z0 := 100 }, z := some 100, sample := 1 }

theorem witness_FocusLoopAdvances :
    (∃ (s : State) (b : Attempt) (v : PredService), Quiet s ∧ Room s 2 ∧ s.focus.attempt = some b ∧ b.ending = false ∧
      s.focus.service = some v ∧ v.forQuery = false ∧ v.discard = false ∧ s.focus.queryPlace = true ∧
      s.focus.query ≠ none ∧ s.focus.setpoint ≠ some (ofSigned v.pred.z0) ∧ s.focus.frame = none) ∧
    (∀ settled : Bool, ∃ (s : State) (b : Attempt) (v : PredService), Quiet s ∧ Room s 2 ∧
      s.focus.attempt = some b ∧ b.ending = false ∧ s.focus.service = some v ∧ v.forQuery = false ∧
      v.discard = false ∧ s.focus.queryPlace = true ∧ s.focus.query ≠ none ∧
      s.focus.setpoint = some (ofSigned v.pred.z0) ∧ s.focus.fsettled = settled) ∧
    (∀ l ∈ [LoopState.awaitSettle, .awaitSample, .reading], ∃ (s : State) (b : Attempt), Quiet s ∧ Room s 2 ∧
      s.focus.attempt = some b ∧ b.ending = false ∧ b.loop = l ∧ s.focus.settleTimer ≠ none ∧ s.focus.hsample = none) :=
  ⟨⟨served none false, attempt .predicting .revisit, { forQuery := false, pred := { z0 := 100 } }, by decide +kernel⟩,
    fun settled => ⟨served (some 100) settled, attempt .predicting .revisit, { forQuery := false, pred := { z0 := 100 } },
      by cases settled <;> decide +kernel⟩,
    fun l hl => ⟨{ base with focus := { attempt := some (attempt l .probe), settleTimer := some 0 } }, attempt l .probe,
      by revert l; decide +kernel⟩⟩

/-- An attempt that reads a height for the sample `k` at Z, in FOCUS of a revisit with a pause pending or of a probe. -/
def reading (k : AttemptKind) (z : Int) (sample : Nat) : State :=
  let s := match k with | .revisit => revisiting .focus base | .probe => probing .focus base
  { s with focus := { attempt := some { attempt .reading k with z := some z, sample := sample } } }

/-- With the Z of 100 and the limits −1,000 and 2,000 of the plan: no capture, the tolerance, one above it at each limit
and at the last sample, and one above it elsewhere. -/
theorem witness_HeightSamplesAreJudged :
    ∀ k : AttemptKind, ∀ c ∈ [((100 : Int), 1, (0x8000 : BitVec 16)), (100, 1, 100), (2000, 1, 101), (-1000, 1, 0xFF00),
        (100, 3, 101), (100, 1, 101)],
      ∃ (s : State) (b : Attempt) (pr : Prediction) (d : Nat), Quiet s ∧ s.queue = [] ∧ s.seq.phase = .focus ∧
        s.lot.st ≠ .opened ∧ s.plan = some plan0 ∧ s.focus.attempt = some b ∧ b.loop = .reading ∧ b.ending = false ∧
        b.z = some c.1 ∧ b.sample = c.2.1 ∧ b.pred = some pr ∧ b.kind = k ∧
        (k = .revisit → Revisiting s d ∧ PauseAlone s.seq ∧ s.report.seqSlot = none ∧ Permitted s ∧
          s.motion.trigPulse = none) ∧
        (k = .probe → s.seq.st = .probing ∧ s.focus.clearing = 0) ∧ s.focus.frame = none ∧
        s.focus.setpoint ≠ some (ofSigned (clampInt plan0.zMin plan0.zMax
          (c.1 + (c.2.2.toInt * plan0.focusGain + 128).fdiv 256))) ∧
        (judgeSample plan0 c.1 c.2.1 c.2.2 = (match c with
          | (_, _, 0x8000) => .ends .noCapture
          | (_, _, 100) => .ends .accepted
          | (2000, _, _) => .ends .atLimit
          | (-1000, _, _) => .ends .atLimit
          | (_, 3, _) => .ends .notConverged
          | _ => .next 191)) :=
  fun k c hc => ⟨reading k c.1 c.2.1, { attempt .reading k with z := some c.1, sample := c.2.1 }, { z0 := 100 }, 1,
    by cases k <;> revert c <;> decide +kernel⟩

theorem witness_MapRequestsAreTaken :
    (∃ (s : State) (a : Nat), Takes s focusControl a ∧ s.plan = some plan0 ∧ 288 < s.focus.seedIndex.toNat) ∧
    (∃ (s : State) (a : Nat), Takes s focusControl a ∧ s.plan = some plan0 ∧ s.focus.seedIndex.toNat ≤ 288 ∧
      s.hand.stage = none ∧ s.focus.learns = []) ∧
    (∃ (s : State) (a : Nat), Takes s focusControl a ∧ s.plan = some plan0 ∧ s.focus.seedIndex.toNat ≤ 288 ∧
      s.hand.stage ≠ none) ∧
    (∃ (s : State) (a : Nat), Takes s queryTriggerWord a ∧ s.plan = some plan0 ∧ s.focus.query ≠ none) ∧
    (∀ n ∈ [0, 1], ∃ (s : State) (a : Nat), Takes s queryTriggerWord a ∧ s.plan = some plan0 ∧ s.focus.query = none ∧
      s.focus.service = none ∧ s.focus.clearing = n) ∧
    (∃ (s : State) (v : PredService) (b : Attempt), Quiet s ∧ Room s 3 ∧ s.focus.service = some v ∧ v.forQuery = true ∧
      s.focus.query ≠ none ∧ s.focus.queryPlace = false ∧ s.focus.seqPlace = true ∧ s.focus.attempt = some b) ∧
    (∀ k ∈ [1, 35, 36], ∃ s : State, Inv s = true ∧ s.inReset = false ∧ s.made = [] ∧ s.sequel = [] ∧ s.named = [] ∧
      s.hostBusy = true ∧ Room s 8 ∧ s.waiting = [[.clearNodes k true, .finishHost]] ∧ 37 - k ≤ s.focus.clearing ∧
      s.plan = some plan0 ∧ s.focus.learns = [] ∧ s.focus.seqPlace = true) ∧
    (∃ (s : State) (x y z : Int), Inv s = true ∧ s.inReset = false ∧ s.made = [] ∧ s.sequel = [] ∧ s.named = [] ∧
      s.hostBusy = true ∧ Room s 8 ∧ s.waiting = [[.clearNodes 36 true, .finishHost]] ∧ s.plan = some plan0 ∧
      s.focus.learns = [(x, y, z)] ∧ s.focus.clearing = 1 ∧ s.focus.seqPlace = false ∧ s.focus.queryPlace = false) :=
  let v : PredService := { forQuery := true, pred := { z0 := 9 } }
  ⟨⟨{ base with focus := { seedIndex := 289 } }, 0x102918, by decide +kernel⟩,
    ⟨{ base with focus := { seedIndex := 288 } }, 0x102918, by decide +kernel⟩,
    ⟨{ loaded .loaded base with focus := { seedIndex := 288 } }, 0x102918, by decide +kernel⟩,
    ⟨{ base with focus := { query := some (0, 0) } }, 0x10293C, by decide +kernel⟩,
    fun n hn => ⟨{ base with focus := { clearing := n } }, 0x10293C, by revert n; decide +kernel⟩,
    ⟨{ attempting .predicting .probe base with focus := {
        query := some (0, 0), service := some v, seqPlace := true, attempt := some (attempt .predicting .probe) } }, v,
      attempt .predicting .probe, by decide +kernel⟩,
    fun k hk => ⟨{ attempting .predicting .probe base with
        queue := full.drop 8, hostBusy := true, waiting := [[.clearNodes k true, .finishHost]]
        focus := { clearing := 37 - k, seqPlace := true, attempt := some (attempt .predicting .probe) } }, by
      revert k; decide +kernel⟩,
    { base with
      queue := full.drop 8, hostBusy := true, waiting := [[.clearNodes 36 true, .finishHost]]
      focus := { clearing := 1, learns := [(7, 0, 100)] } }, 7, 0, 100, by decide +kernel⟩

/-- A pitch of 0 is no plan's; a node that is invalid, and a valid one whose count is at its limit. -/
theorem witness_PredictionsAndLearnsFollowTheirFormulas : 0 < plan0.pitch ∧ plan0.zMin ≤ plan0.zMax ∧
    (∃ n : Node, n.valid = false) ∧ (∃ n : Node, n.valid = true ∧ n.count = 255) :=
  ⟨by decide, by decide, ⟨{}, rfl⟩, { valid := true, count := 255 }, rfl, rfl⟩

/-- The sequencer is in this state, with no phase. -/
def inState (st : SeqState) (s : State) : State := { s with seq := { s.seq with st := st } }

/-- N is at the capacity and one above it; the unseal is in READY and in DONE. -/
theorem witness_SealAndUnsealAreTaken :
    (∃ (s : State) (n : Word) (a : Nat), Takes s sealWord a ∧ s.plan = some plan0 ∧ n ≠ 0 ∧ s.seq.st ≠ .idle) ∧
    (∃ (s : State) (n : Word) (a : Nat), Takes s sealWord a ∧ s.plan = some plan0 ∧ n ≠ 0 ∧ s.seq.st = .idle ∧
      plan0.capacity < n.toNat) ∧
    (∃ (s : State) (n : Word) (a : Nat), Takes s sealWord a ∧ s.plan = some plan0 ∧ n ≠ 0 ∧ s.seq.st = .idle ∧
      n.toNat ≤ plan0.capacity ∧ s.stageWaferOnST = false) ∧
    (∃ (s : State) (n : Word) (a : Nat), Takes s sealWord a ∧ s.plan = some plan0 ∧ n ≠ 0 ∧ s.seq.st = .idle ∧
      n.toNat ≤ plan0.capacity ∧ s.stageWaferOnST = true) ∧
    (∃ (s : State) (a : Nat), Takes s sealWord a ∧ s.plan = some plan0 ∧ s.seq.st ≠ .ready) ∧
    (∃ (s : State) (a : Nat), Takes s sealWord a ∧ s.plan = some plan0 ∧ s.seq.st = .ready ∧ s.queue = []) :=
  ⟨⟨inState .ready base, 3, 0x103000, by decide +kernel⟩, ⟨base, 257, 0x103000, by decide +kernel⟩,
    ⟨base, 256, 0x103000, by decide +kernel⟩, ⟨loaded .loaded base, 256, 0x103000, by decide +kernel⟩,
    ⟨inState .done base, 0x103000, by decide +kernel⟩, inState .ready (sealed base), 0x103000, by decide +kernel⟩

/-- The eight records of chapter 8; with an empty queue the build of three records ends in the event; with a full one it
waits at the first; and one that waits at the first, the last, and the step behind them. -/
theorem witness_OrderBuildRanksTheRecords : (∃ (s : State) (p : Plan), s.plan = some p ∧ s.defects.n = 8) ∧
    (∀ q ∈ [[], full], ∃ s : State, Quiet s ∧ s.queue = q ∧ s.defects.list = .building ∧ s.defects.formed = false ∧
      s.defects.n = 3) ∧
    (∀ k ∈ [0, 2, 3], ∃ s : State, Inv s = true ∧ s.inReset = false ∧ s.made = [] ∧ s.sequel = [] ∧ s.named = [] ∧
      Room s 4 ∧ s.defects.list = .building ∧ s.waiting = [[.buildRecord k]] ∧ k ≤ s.defects.n ∧ s.defects.n = 3 ∧
      ∀ d, k ≤ d → (s.defect d).st = .unlisted) :=
  ⟨⟨eight, plan0, rfl, rfl⟩,
    fun q hq => ⟨{ base with queue := q, defects := { n := 3, list := .building } }, by revert q; decide +kernel⟩,
    fun k hk => ⟨{ base with
        queue := full.drop 4, waiting := [[.buildRecord k]]
        defects := { n := 3, list := .building, formed := true, order := [1, 0, 2] } }, by
      refine ⟨rfl, rfl, rfl, rfl, rfl, show (full.drop 4).length + 4 ≤ 16 by decide, rfl, rfl, ?_, rfl, fun _ _ => rfl⟩
      revert k; decide⟩⟩

theorem witness_SealedRecordsAreDisposed :
    (∃ (s : State) (r : BitVec 12) (k : Fin 4) (be : BitVec 4) (a : Nat), Takes s (recordWord r.toNat k.val) a ∧
      be ≠ 0 ∧ s.defects.list ≠ .empty ∧ r.toNat < s.defects.n) ∧
    (∃ (s : State) (r : BitVec 12) (a : Nat), Takes s (recordWord r.toNat 4) a ∧ Room s 6 ∧ s.lot.st ≠ .opened ∧
      s.defects.list = .building) ∧
    (∃ (s : State) (r : BitVec 12) (a : Nat), Takes s (recordWord r.toNat 4) a ∧ Room s 6 ∧ s.lot.st ≠ .opened ∧
      s.defects.list ≠ .building ∧ s.defects.n ≤ r.toNat) ∧
    (∃ (s : State) (r : BitVec 12) (a : Nat), Takes s (recordWord r.toNat 4) a ∧ Room s 6 ∧ s.lot.st ≠ .opened ∧
      s.defects.list ≠ .building ∧ r.toNat < s.defects.n ∧ (s.defect r.toNat).st = .pending) ∧
    (∃ (s : State) (r : BitVec 12) (a : Nat), Takes s (recordWord r.toNat 4) a ∧ Room s 6 ∧ s.lot.st ≠ .opened ∧
      s.defects.list ≠ .building ∧ r.toNat < s.defects.n ∧ (s.defect r.toNat).st = .skipped ∧ s.seq.st ≠ .done) :=
  ⟨⟨sealed base, 2, 3, 1, 0x10404C, by decide +kernel⟩,
    ⟨{ base with defects := { list := .building, n := 3 } }, 2, 0x104050, by decide +kernel⟩,
    ⟨sealed base, 3, 0x104070, by decide +kernel⟩, ⟨sealed base, 2, 0x104050, by decide +kernel⟩,
    { base with defects := { list := .sealed, n := 3, recs := [(2, { st := .skipped })] } }, 2, 0x104050,
    by decide +kernel⟩

/-- A refusal of each control: IDLE for all but the PROBE, whose refusal is ORDERING's, and the later checks of START,
RESUME and PROBE. -/
theorem witness_RefusedControlsChangeNothing :
    (∃ (s : State) (a : Nat), Takes s seqControl a ∧ s.seq.st = .idle) ∧
    (∃ (s : State) (a : Nat), Takes s seqControl a ∧ s.seq.st = .ordering) ∧
    (∃ (s : State) (a : Nat), Takes s seqControl a ∧ s.seq.st = .done ∧ s.stateCount 1 = 0) ∧
    (∃ (s : State) (a : Nat), Takes s seqControl a ∧ s.seq.st = .paused ∧ s.seq.reason = .fault ∧ s.hand.held = true) ∧
    (∃ (s : State) (a : Nat), Takes s seqControl a ∧ s.seq.st = .ready ∧ ¬ReviewReady s) ∧
    (∃ (s : State) (a : Nat), Takes s seqControl a ∧ s.seq.st = .ready ∧ ReviewReady s ∧ ¬Permitted s) ∧
    (∃ (s : State) (a : Nat), Takes s seqControl a ∧ s.seq.st = .halted ∧
      ¬∃ w, s.hand.stage = some w ∧ (s.posn 52).occupant = some w) ∧
    (∃ (s : State) (a : Nat), Takes s seqControl a ∧ s.seq.st = .halted ∧
      (∃ w, s.hand.stage = some w ∧ (s.posn 52).occupant = some w) ∧ ¬Permitted s) :=
  ⟨⟨base, 0x103008, by decide +kernel⟩, ⟨inState .ordering base, 0x103008, by decide +kernel⟩,
    ⟨inState .done base, 0x103008, by decide +kernel⟩,
    ⟨{ base with seq := { st := .paused, reason := .fault }, hand := { held := true } }, 0x103008, by decide +kernel⟩,
    ⟨inState .ready base, 0x103008, by decide +kernel, rfl, fun h => nomatch h.choose_spec.1⟩,
    ⟨inState .ready (loaded .aligned base), 0x103008, by decide +kernel, rfl, ⟨10, by decide +kernel⟩, by decide +kernel⟩,
    ⟨inState .halted base, 0x103008, by decide +kernel, rfl, fun h => nomatch h.choose_spec.1⟩,
    inState .halted (loaded .reviewing base), 0x103008, by decide +kernel, rfl, ⟨10, rfl, rfl⟩, by decide +kernel⟩

/-- A START from READY and from DONE and a RESUME, with a stale shadow target; and a START with one queued defect, whose
quota is reached. -/
theorem witness_StartAndResumeSelectTheHead :
    (∀ st ∈ [SeqState.ready, .done, .paused, .halted], ∃ (s : State) (d a : Nat), Takes s seqControl a ∧ Room s 6 ∧
      Permitted s ∧ s.defects.queue.head? = some d ∧ quotaReached s (s.defect d).priorClass = false ∧
      s.motion.shadow = none ∧ s.seq.outstanding = none ∧ s.seq.st = st ∧ s.stateCount 1 ≠ 0 ∧
      s.seq.reason ≠ .ring ∧ ReviewReady s ∧ NoFlags s.seq) ∧
    (∃ (s : State) (d a : Nat), Takes s seqControl a ∧ Room s 6 ∧ Permitted s ∧
      quotaReached s (s.defect d).priorClass = true ∧ s.seq.st = .ready ∧ ReviewReady s ∧ s.queue = [] ∧
      s.defects.queue = [d] ∧ (s.defect d).st = .pending ∧ s.report.seqSlot = none ∧ s.lot.st ≠ .opened) := by
  refine ⟨fun st hs => ⟨inState st (loaded .aligned (permitted (sealed base))), 1, 0x103008, ?_⟩, ?_⟩
  · have h : ReviewReady (inState st (loaded .aligned (permitted (sealed base)))) := ⟨10, rfl, rfl, .inl rfl⟩
    simp only [h, true_and]
    clear h; revert st; decide +kernel
  · exact ⟨{ inState .ready (loaded .aligned (permitted base)) with defects := {
        recs := [(0, { st := .pending }), (1, { st := .imaged })], n := 2, list := .sealed, queue := [0]
        quotas := [(0, 1)], imaged := [(0, 1)], counts := [(1, 1), (3, 1)] } }, 0, 0x103008, by decide +kernel,
      by decide +kernel, by decide +kernel, by decide +kernel, rfl, ⟨10, rfl, rfl, .inl rfl⟩, by decide +kernel⟩

theorem witness_ControlsEndTheRun :
    (∃ (s : State) (a : Nat), Takes s seqControl a ∧ s.seq.st = .running ∧ s.seq.phase = .resolve) ∧
    (∃ (s : State) (a : Nat), Takes s seqControl a ∧ s.seq.st = .paused ∧ s.seq.reason = .ring) ∧
    (∃ (s : State) (a : Nat), Takes s seqControl a ∧ s.report.seqSlot = none ∧ s.seq.st = .paused ∧
      s.seq.reason ≠ .ring) ∧
    (∀ ph ∈ [Phase.select, .target], ∃ (s : State) (a : Nat), Takes s seqControl a ∧ s.report.seqSlot = none ∧
      s.seq.st = .running ∧ s.seq.phase = ph) ∧
    (∀ ph ∈ [Phase.move, .settle, .focus, .expose], ∃ (s : State) (a d : Nat), Takes s seqControl a ∧
      s.report.seqSlot = none ∧ Revisiting s d ∧ s.seq.phase = ph ∧ activePhase s.seq = true ∧ Room s 12 ∧
      AttemptByPhase s) ∧
    (∃ (s : State) (a : Nat), Takes s seqControl a ∧ s.seq.st = .halted ∧ s.report.seqSlot ≠ none ∧ s.queue = [] ∧
      s.lot.st ≠ .opened) := by
  refine ⟨⟨{ base with seq := { st := .running, phase := .resolve } }, 0x103008, by decide +kernel⟩,
    ⟨{ base with seq := { st := .paused, reason := .ring } }, 0x103008, by decide +kernel⟩,
    ⟨{ base with seq := { st := .paused, reason := .host } }, 0x103008, by decide +kernel⟩,
    fun ph hp => ⟨{ base with seq := { st := .running, phase := ph } }, 0x103008, by revert ph; decide +kernel⟩,
    fun ph hp => ⟨inPhase ph .revisit, 0x103008, 1, ?_⟩,
    { inState .halted base with report := { seqSlot := some { kind := 1, qualifier := 0, wafer := 10, w1 := 0, w2 := 0, w3 := 0 } } },
    0x103008, by decide +kernel⟩
  have h := inPhase_attempt ph .revisit hp
  simp only [h, and_true]
  clear h; revert ph; decide +kernel

theorem witness_ProbesStartAndEnd :
    (∀ st ∈ [SeqState.idle, .ready, .paused, .done], ∃ (s : State) (a : Nat), Takes s seqControl a ∧ s.seq.st = st ∧
      s.seq.reason ≠ .ring ∧ ReviewReady s ∧ Permitted s ∧ s.seq.outstanding = none) ∧
    (∀ ph ∈ [Phase.move, .settle, .focus], ∃ (s : State) (a : Nat), Takes s seqControl a ∧ s.seq.st = .probing ∧
      s.seq.phase = ph ∧ s.seq.prior = some (.done, .noReason) ∧ Room s 10 ∧ AttemptByPhase s) := by
  refine ⟨fun st hs => ⟨inState st (loaded .aligned (permitted base)), 0x103008, ?_⟩, fun ph hp =>
    ⟨inPhase ph .probe, 0x103008, ?_⟩⟩
  · have h : ReviewReady (inState st (loaded .aligned (permitted base))) := ⟨10, rfl, rfl, .inl rfl⟩
    simp only [h, true_and]
    clear h; revert st; decide +kernel
  · have h := inPhase_attempt ph .probe (by revert ph; decide)
    simp only [h, and_true]
    clear h; revert ph; decide +kernel

theorem witness_VerdictsAreTaken :
    (∃ (s : State) (idx : BitVec 12) (a : Nat), Takes s verdictWord a ∧ s.seq.current ≠ some idx.toNat) ∧
    (∃ (s : State) (idx : BitVec 12) (a : Nat), Takes s verdictWord a ∧ s.seq.current = some idx.toNat ∧
      s.seq.phase ≠ .expose) ∧
    (∃ (s : State) (idx : BitVec 12) (a : Nat), Takes s verdictWord a ∧ s.plan = some plan0 ∧ s.queue = [] ∧
      Revisiting s idx.toNat ∧ s.seq.phase = .expose ∧ PauseAlone s.seq ∧ s.report.seqSlot = none ∧
      s.lot.st ≠ .opened ∧ s.focus.attempt = none ∧ s.focus.clearing = 0) ∧
    (∀ st ∈ [DefectState.imaged, .failed], ∀ ops ∈ [([.resolveEnd true] : Task), [.visited, .resolveEnd true]],
      ∀ slot ∈ [none, some (waferDoneRecord base .stop)], ∃ (s : State) (d : Nat), Inv s = true ∧ s.inReset = false ∧
        s.made = [] ∧ s.sequel = [] ∧ s.named = [] ∧ Room s 6 ∧ s.seq.st = .running ∧ s.seq.phase = .resolve ∧
        s.seq.current = some d ∧ (s.defect d).st = st ∧ s.waiting = [ops] ∧ s.report.seqSlot = slot ∧
        PauseAlone s.seq ∧ s.lot.st ≠ .opened ∧ s.hand.stage = some 10) := by
  refine ⟨⟨base, 1, 0x103018, by decide +kernel⟩, ⟨revisiting .resolve base, 1, 0x103018, by decide +kernel⟩,
    ⟨revisiting .expose base, 1, 0x103018, by decide +kernel⟩, fun st hs ops ho slot hl =>
    ⟨{ revisiting .resolve (loaded .reviewing base) with
        queue := full.drop 6, waiting := [ops], report := { seqSlot := slot }
        defects := { n := 2, list := .sealed, recs := [(1, { x := 7, st := st })] } }, 1, ?_⟩⟩
  revert st ops slot; decide +kernel

/-- The attempts are below the maximum of 2 and, with one more, at it. -/
theorem witness_TimeoutsFailTheAttempt :
    (∃ (s : State) (d : Nat), Quiet s ∧ s.plan = some plan0 ∧ s.queue = [] ∧ Revisiting s d ∧ PauseAlone s.seq ∧
      s.report.seqSlot = none ∧ s.lot.st ≠ .opened ∧ s.seq.phase = .expose ∧ s.focus.attempt = none ∧
      s.seq.verdictTimer = some 4 ∧ (s.defect d).attempts + 1 < plan0.maxAttempts) ∧
    (∃ (s : State) (d : Nat), Quiet s ∧ s.plan = some plan0 ∧ s.queue = [] ∧ Revisiting s d ∧ PauseAlone s.seq ∧
      s.report.seqSlot = none ∧ s.lot.st ≠ .opened ∧ s.seq.phase = .move ∧ s.focus.attempt = none ∧
      moving s.motion = true ∧ s.motion.moveTimer = some 1) ∧
    (∃ (s : State) (d : Nat) (b : Attempt) (pr : Prediction), Quiet s ∧ s.plan = some plan0 ∧ s.queue = [] ∧
      Revisiting s d ∧ PauseAlone s.seq ∧ s.report.seqSlot = none ∧ s.lot.st ≠ .opened ∧ s.seq.phase = .focus ∧
      s.focus.attempt = some b ∧ b.ending = false ∧ b.kind = .revisit ∧ b.pred = some pr ∧
      pr.source = .interpolated ∧ s.focus.settleTimer = some 2 ∧ s.focus.sampleTimer = some 3 ∧
      plan0.maxAttempts ≤ (s.defect d).attempts + 1) :=
  let s1 := revisiting .expose base
  let s3 := attempting .awaitSettle .revisit (revisiting .focus base)
  ⟨⟨{ s1 with seq := { s1.seq with verdictTimer := some 4 } }, 1, by decide +kernel⟩,
    ⟨timing .moving (7, 0) (revisiting .move base), 1, by decide +kernel⟩,
    { s3 with
      focus := { s3.focus with settleTimer := some 2, sampleTimer := some 3 }
      defects := { s3.defects with recs := [(1, { x := 7, st := .active, attempts := 1 })] } },
    1, attempt .awaitSettle .revisit, { z0 := 100 },
    by decide +kernel⟩

/-- The copy of expected wafers is at the limit of 50 and one above it, and the tag's copy is 0; and the waiting steps of
an OPEN. -/
theorem witness_OpenLotZeroesTheFigures :
    (∃ (s : State) (a : Nat), Takes s lotControl a ∧ s.plan ≠ none ∧ s.lot.st = .opened) ∧
    (∃ (s : State) (a : Nat), Takes s lotControl a ∧ s.plan ≠ none ∧ s.lot.st ≠ .opened ∧ 50 < s.lot.expectedCopy.toNat) ∧
    (∃ (s : State) (a : Nat), Takes s lotControl a ∧ s.plan ≠ none ∧ s.lot.st ≠ .opened ∧ getField s.lot.tagCopy 0 16 = 0) ∧
    (∃ (s : State) (a : Nat), Takes s lotControl a ∧ s.plan ≠ none ∧ s.lot.st ≠ .opened ∧ getField s.lot.tagCopy 0 16 ≠ 0 ∧
      s.lot.expectedCopy.toNat ≤ 50 ∧ s.lot.deferred ≠ none) ∧
    (∃ (s : State) (a : Nat), Takes s lotControl a ∧ s.plan ≠ none ∧ s.lot.st ≠ .opened ∧ getField s.lot.tagCopy 0 16 ≠ 0 ∧
      s.lot.expectedCopy.toNat ≤ 50 ∧ s.report.lotSlot = none ∧ s.lot.deferred = none) ∧
    (∀ i ∈ [0, 8, 15, 16, 17, 18], ∃ s : State, s.inReset = false ∧ s.made = [] ∧ s.sequel = [] ∧ s.named = [] ∧
      s.queue = [] ∧ s.plan ≠ none ∧ s.waiting = [openSteps.drop i]) :=
  let r : Record := { kind := 6, qualifier := 1, wafer := 63, w1 := 0, w2 := 0, w3 := 0 }
  ⟨⟨{ base with lot := { st := .opened } }, 0x11000C, by decide +kernel⟩,
    ⟨{ base with lot := { tagCopy := 7, expectedCopy := 51 } }, 0x11000C, by decide +kernel⟩,
    ⟨{ base with lot := { tagCopy := 0x10000 } }, 0x11000C, by decide +kernel⟩,
    ⟨{ base with lot := { tagCopy := 7, expectedCopy := 50, deferred := some r } }, 0x11000C, by decide +kernel⟩,
    ⟨{ base with lot := { tagCopy := 7, expectedCopy := 50 } }, 0x11000C, by decide +kernel⟩,
    fun i _ => ⟨{ base with waiting := [openSteps.drop i] }, rfl, rfl, rfl, rfl, rfl, nofun, rfl⟩⟩

/-- A lot is OPEN with this many members, each in its slot, the last of them wafer 49. -/
def inLot (n : Nat) : State :=
  { base with
    lot := { st := .opened }
    hand := { wafers := (List.range n).map fun i => (50 - n + i, { place := .pos (50 - n + i), member := true, lotTag := 7 }) } }

/-- The refusals of the two controls; a CLOSE with no member, with seven and with eight; a FORCE_CLOSE with a member on ST and
the staging slot full, and with eight members; and the waiting steps of a close, with the staging slot empty and full. -/
theorem witness_CloseEndsTheLot :
    (∃ (s : State) (a : Nat), Takes s lotControl a ∧ s.lot.st ≠ .opened) ∧
    (∃ (s : State) (a : Nat), Takes s lotControl a ∧ s.lot.st = .opened ∧ s.seq.st = .halted) ∧
    (∃ (s : State) (a : Nat), Takes s lotControl a ∧ s.lot.st = .opened ∧ s.seq.st = .done ∧
      (∃ w, w < 50 ∧ (s.wafer w).member = true ∧ (s.wafer w).place ≠ .pos w) ∧ s.report.lotSlot ≠ none ∧
      s.queue = [] ∧ s.plan ≠ none ∧ ((List.range 50).filter fun w => (s.wafer w).member).length = 1) ∧
    (∀ n ∈ [0, 7, 8], ∃ (s : State) (a : Nat), Takes s lotControl a ∧ s.lot.st = .opened ∧ s.seq.st = .idle ∧
      (¬∃ w, w < 50 ∧ (s.wafer w).member = true ∧ (s.wafer w).place ≠ .pos w) ∧ s.report.lotSlot = none ∧
      s.queue = [] ∧ s.plan ≠ none ∧ ((List.range 50).filter fun w => (s.wafer w).member).length = n) ∧
    (∀ v ∈ [StepOp.lotReport, .clearMember 0], ∃ s : State, Inv s = true ∧ s.inReset = false ∧ s.made = [] ∧
      s.sequel = [] ∧ s.named = [] ∧ s.queue = [] ∧ s.plan ≠ none ∧ s.waiting = [[.clearMember 49, v]]) ∧
    (∀ slot ∈ [none, some (waferDoneRecord base .stop)], ∃ s : State, Inv s = true ∧ s.inReset = false ∧ s.made = [] ∧
      s.sequel = [] ∧ s.named = [] ∧ s.queue = [] ∧ s.plan ≠ none ∧ s.waiting = [[.lotReport, .finishHost]] ∧
      s.report.lotSlot = slot) := by
  refine ⟨⟨base, 0x11000C, by decide +kernel⟩,
    ⟨{ base with lot := { st := .opened }, seq := { st := .halted } }, 0x11000C, by decide +kernel⟩,
    ⟨{ base with
        lot := { st := .opened }, seq := { st := .done }
        hand := { wafers := [(3, { place := .pos 52, member := true })] }
        report := { lotSlot := some (waferDoneRecord base .stop) } }, 0x11000C, by decide +kernel⟩,
    fun n hn => ⟨inLot n, 0x11000C, ?_⟩, fun v hv => ⟨{ inLot 8 with waiting := [[.clearMember 49, v]] }, ?_⟩,
    fun slot hs => ⟨{ inLot 0 with waiting := [[.lotReport, .finishHost]], report := { lotSlot := slot } }, ?_⟩⟩
  · revert n; decide +kernel
  · revert v; decide +kernel
  · revert slot; decide +kernel

/-- A lot is OPEN and wafer 10, a member, is the stage wafer; every threshold is 1 and every wafer value 1. -/
def counting (counted : Bool) : State :=
  { base with
    lot := { st := .opened, tag := 7, holdCopy := 1
             attrs := [(8, { threshold := 1, wafer := 1 }), (9, { threshold := 1, wafer := 1 }),
               (11, { threshold := 1, wafer := 1 })] }
    hand := { stage := some 10, wafers := [(10, { place := .pos 52, progress := .loaded, member := counted })] }
    seq := { st := .running, phase := .target } }

/-- An encoder fault and the steps of the focus figures that trip a first attribute, and that do not count for the lot. -/
theorem witness_LotCountsAndTrips : ∀ counted : Bool,
    (∃ s : State, Quiet s ∧ Room s 9 ∧ s.lot.st = .opened ∧ (s.motion.encoder .x).phase = 0 ∧
      moving s.motion = false ∧ ¬(SeqEngaged s ∧ activePhase s.seq = true) ∧ s.hand.stage = some 10 ∧
      (s.wafer 10).member = counted ∧ (s.attr 11).threshold.toNat < (s.attr 11).wafer + 1) ∧
    (∀ op ∈ [StepOp.meanCorrection 5 (some 10) counted, .maxCorrection 5 (some 10) counted, .histogram 15 counted],
      ∃ s : State, Inv s = true ∧ s.inReset = false ∧ s.made = [] ∧ s.sequel = [] ∧ s.named = [] ∧ Room s 8 ∧
        s.hand.stage = some 10 ∧ s.waiting = [[op]]) :=
  fun counted => ⟨⟨counting counted, by cases counted <;> decide +kernel⟩, fun op _ =>
    ⟨{ counting counted with waiting := [[op]] }, by cases counted <;> rfl, rfl, rfl, rfl, rfl, by
      show 0 + 8 ≤ 16; decide, rfl, rfl⟩⟩

/-- The ring of 16 is full at 15 unread records; at 14 the posting fills it; and a posting that ends a staging wait. -/
theorem witness_PostingTakesTheFirstSlot :
    (∃ s : State, Quiet s ∧ Room s 8 ∧ s.plan = some plan0 ∧ plan0.ringLength - 1 ≤ s.report.unread) ∧
    (∀ k ∈ [0, 1, 2, 3], ∃ (s : State) (r : Record), Quiet s ∧ Room s 8 ∧ s.plan = some plan0 ∧
      s.report.unread < plan0.ringLength - 1 ∧ s.seq.staging = none ∧
      (s.report.faultSlot = if k = 0 then some r else none) ∧ (s.report.handSlot = if k = 1 then some r else none) ∧
      (s.report.seqSlot = if k = 2 then some r else none) ∧ (s.report.lotSlot = if k = 3 then some r else none)) ∧
    (∃ (s : State) (r r2 : Record), Quiet s ∧ Room s 8 ∧ s.plan = some plan0 ∧
      s.report.unread < plan0.ringLength - 1 ∧ s.report.faultSlot = none ∧ s.report.handSlot = none ∧
      s.report.seqSlot = some r ∧ s.seq.staging = some (.revisit r2) ∧ PauseAlone s.seq ∧ s.seq.st = .paused ∧
      s.seq.reason = .ring) :=
  let r : Record := { kind := 3, qualifier := 0, wafer := 10, w1 := 1, w2 := 2, w3 := 3 }
  ⟨⟨{ base with report := { unread := 15, faultSlot := some r } }, by decide +kernel⟩,
    fun k hk => ⟨{ base with report := {
        unread := 14, faultSlot := if k = 0 then some r else none, handSlot := if k = 1 then some r else none
        seqSlot := if k = 2 then some r else none, lotSlot := if k = 3 then some r else none } }, r,
      by revert k; decide +kernel⟩,
    { base with
      report := { seqSlot := some r }
      seq := { st := .paused, reason := .ring, phase := .resolve, fPause := true, staging := some (.revisit r) } },
    r, r, by decide +kernel⟩

/-- The consumer index goes from 14 to 1, of a ring of 16: three of four unread records, and beyond two; and to 16, the
ring's length. -/
theorem witness_ConsumptionAndInterrupt :
    (∃ (s : State) (be : BitVec 4) (a : Nat), Takes s consumerWord a ∧ s.plan = some plan0 ∧ be ≠ 0 ∧
      (let merged := mergeLanes be s.report.consumer 1
       let new := getField merged 0 16
       new < plan0.ringLength ∧
         (((new : Int) - (getField s.report.consumer 0 16 : Int)) % (plan0.ringLength : Int)).toNat = 3 ∧
         3 ≤ s.report.unread)) ∧
    (∃ (s : State) (be : BitVec 4) (a : Nat), Takes s consumerWord a ∧ s.plan = some plan0 ∧ be ≠ 0 ∧
      s.report.unread = 2 ∧ s.report.consumer = 14) ∧
    (∃ (s : State) (be : BitVec 4) (a : Nat), Takes s eventMaskWord a ∧ be ≠ 0) ∧
    (∃ s : State, Quiet s ∧ s.plan = some plan0 ∧ s.report.coalesce = .running 5 ∧ 0 < s.report.unread) ∧
    (∃ s : State, s.inReset = false ∧ s.plan = some plan0 ∧ s.irq = true) :=
  ⟨⟨{ base with report := { consumer := 14, unread := 4 } }, 15, 0x111004, by decide +kernel⟩,
    ⟨{ base with report := { consumer := 14, unread := 2 } }, 15, 0x111004, by decide +kernel⟩,
    ⟨base, 15, 0x110020, by decide +kernel⟩,
    ⟨{ base with report := { unread := 1, coalesce := .running 5 } }, by decide +kernel⟩,
    { base with report := { unread := 4 } }, by decide +kernel⟩

/-- The conditions on a state under which a field of R206 is stated: a standing that can be read, a worst deviation of 64
bits, and a current attempt that fits its field. -/
theorem witness_WordsAreLaidOut : ∃ (s : State) (d : Nat), s.planU.standing ≠ .starting ∧ s.xform.devMagnitude < 2 ^ 64 ∧
    s.seq.current = some d ∧ (s.defect d).attempts < 3 :=
  ⟨revisiting .expose base, 1, by decide +kernel⟩

/-- A MAP and a verdict in progress and start-up, each with a step that waits; a word of each class, a record of the ring, and the alignment commit. -/
theorem witness_HeldWordsWaitForTheirTurn :
    (∀ h ∈ [(Standing.adopted, ([.mapSlot .b 3 7, .finishHost] : Task)), (.committing, [.request verdictWord 1]),
        (.starting, [.adoption 3])],
      ∃ s : State, Inv s = true ∧ s.inReset = false ∧ s.made = [] ∧ s.sequel = [] ∧ s.named = [] ∧ stepsLawful s = true ∧
        portOpen s = false ∧ s.planU.standing = h.1 ∧ s.waiting = [h.2] ∧ s.planBase = base.planBase ∧ s.map = base.map) ∧
    (∀ e ∈ [(0x101018, (⟨.stage, 0x018⟩ : WordRef), WClass.t), (0x10101C, ⟨.stage, 0x01C⟩, .h),
        (0x101000, ⟨.stage, 0x000⟩, .s), (0x102910, ⟨.focus, 0x910⟩, .p), (0x111040, ringRecordWord 0 0, .h)],
      decodeAddr base.planBase base.map e.1 = some e.2.1 ∧ wordClass base.map e.2.1 = e.2.2) ∧
    isRingRecord (ringRecordWord 0 0) = true ∧ hostAddr base alignmentCommitWord ≠ none ∧
    (∃ words : List (BitVec 4 × Word), ∃ e ∈ words, e.1 ≠ 0) ∧
    (∃ words : List (BitVec 4 × Word), words ≠ [] ∧ ∀ e ∈ words, e.1 = 0) :=
  ⟨fun h hh => ⟨{ base with
        hostBusy := h.1 != .starting, planU := { base.planU with standing := h.1 }, waiting := [h.2] }, by
      revert h; decide +kernel⟩,
    by decide +kernel, by decide +kernel, by decide +kernel, ⟨[(15, 7)], (15, 7), by decide, by decide⟩, [(0, 7)],
    by simp, by simp⟩

/-! ### The departure's steps and the results handed over, from the words of R17, R122, R132 and R136 -/

/-- R17, R122: behind a waiting node clear, with the transform status words queued, the departure's step of the transform
unit is taken at once. -/
theorem test_departure_zeroes_the_load_position :
    (State.departTransform { base with
      waiting := [[.clearNodes 0 false]], xform := { loadPos := .at 5 }
      queue := full.drop 4 ++ [(0x10106C, 0), (0x101070, 0), (0x101074, 0), (0x101078, 0)] }).settle.xform.loadPos = .at 0 := by
  decide +kernel

/-- R132, R136: a result carries the outcome, the detail, Z0, the source, the cell and the samples used. -/
theorem test_focus_result_carries_detail_and_cell (c : Cell) :
    (base.focusResulted { x := 1, y := 2, kind := .probe, sample := 3, pred := some { z0 := 7, source := .partly, cell := c } }
      .focusTimeout .settle).made =
    [[.focusResult .probe .focusTimeout { detail := .settle, z0 := 7, source := .partly, cell := some c, samples := 3 }]] :=
  rfl

end Sys2Proof.Tests
end

/-! The through path (chapter 1): what a host write of an H word, of a request word and of a status word does to a quiet
state. -/

namespace Sys2Proof.Machine

/-! ### Words that a host write names by its address -/

/-- The address of a window's word decodes to a word-aligned offset. -/
theorem decodeAddr_aligned {planBase a : Nat} {map : Option Plan} {w : WordRef}
    (h : decodeAddr planBase map a = some w) : w.off % 4 = 0 := by
  unfold decodeAddr at h
  split at h
  · obtain rfl := Option.some.inj h
    exact Nat.mul_mod_left _ 4
  · split at h
    · cases h
    · obtain ⟨_, -, rfl⟩ := Option.map_eq_some_iff.mp h
      exact Nat.mul_mod_left _ 4

/-- A host write to an address that a window in force holds is a write of its word. -/
theorem hostWrite_eq {s : State} {addr : Addr} {w : WordRef}
    (h : decodeAddr s.planBase s.map (wordAligned addr.toNat) = some w) (be : BitVec 4) (d : Word) (more : Bool) :
    s.hostWrite addr be d more = s.hostWordWrite w (wordAligned addr.toNat) be d more := by
  simp [State.hostWrite, h]

theorem memoryOpen_portOpen {s : State} (h : memoryOpen s = true) : portOpen s = true := by
  simp only [memoryOpen, Bool.and_eq_true] at h
  exact h.1.1

theorem memoryOpen_length {s : State} (h : memoryOpen s = true) : s.queue.length < 12 := by
  simp only [memoryOpen, Bool.and_eq_true, decide_eq_true_eq] at h
  exact h.1.2

/-! ### Commands that make no step -/

/-- Between commands with nothing waiting no step is untaken, and every H word shows its table's value. -/
theorem Quiet.shownWord {s : State} (h : Quiet s) (w : WordRef) : shownWord s w = hWord s w := by
  simp [Machine.shownWord, untaken, h.waiting, h.made]

/-- A command that makes no step in a quiet state has no effect but its own. -/
theorem Quiet.act_eq {s t : State} (h : Quiet s) {f : State → State} (hf : f s = t) (hm : t.made = s.made)
    (hw : t.waiting = s.waiting) : s.act f = .next t := by
  rw [State.act_eq h.inReset, hf, settle_nil (hm.trans h.made) (hw.trans h.waiting)]

/-- A state whose memory has taken one word differs from the one before in no byte outside that word. -/
theorem Quiet.storesOnly {s t : State} (h : Quiet s) {a : Nat} {be : BitVec 4} {d : Word}
    (hm : t.mem = writeWordAt s.mem a be d) : StoresOnly s t a := fun b hb => by
  rw [hm, readByte_writeWordAt_outside h.mem hb]

/-! ### Host writes by class -/

/-- R9: a write to a ring record is not issued; it reports OWNED_WRITE and is finished. -/
theorem hostWordWrite_ringRecord {s : State} {w : WordRef} {be : BitVec 4} (hp : portOpen s = true) (hbe : be ≠ 0#4)
    (hc : wordClass s.map w = .h) (hr : isRingRecord w = true) (a : Nat) (d : Word) (more : Bool) :
    s.hostWordWrite w a be d more = (s.event .ownedWrite).finishWord more := by
  simp [State.hostWordWrite, hp, hbe, hc, hr]

/-- R8: memory receives the table value in the enabled lanes, and OWNED_WRITE is reported. -/
theorem hostWordWrite_h {s : State} {w : WordRef} {be : BitVec 4} (ho : memoryOpen s = true) (hbe : be ≠ 0#4)
    (hc : wordClass s.map w = .h) (hr : isRingRecord w = false) (a : Nat) (d : Word) (more : Bool) :
    s.hostWordWrite w a be d more = ((s.memWrite a be (shownWord s w)).event .ownedWrite).finishWord more := by
  simp [State.hostWordWrite, memoryOpen_portOpen ho, ho, hbe, hc, hr]

/-- R12: a partial write to a T word goes to memory and reports PARTIAL_TRIGGER. -/
theorem hostWordWrite_partial {s : State} {w : WordRef} {be : BitVec 4} (ho : memoryOpen s = true) (hbe : be ≠ 0#4)
    (hc : wordClass s.map w = .t) (hbe' : be ≠ 15#4) (a : Nat) (d : Word) (more : Bool) :
    s.hostWordWrite w a be d more = ((s.memWrite a be d).event .partialTrigger).finishWord more := by
  simp [State.hostWordWrite, memoryOpen_portOpen ho, ho, hbe, hc, hbe']

/-- R13: a write to an S word goes to memory; one to the event word clears event flags besides (R203). -/
theorem hostWordWrite_s {s : State} {w : WordRef} {be : BitVec 4} (ho : memoryOpen s = true) (hbe : be ≠ 0#4)
    (hc : wordClass s.map w = .s) (a : Nat) (d : Word) (more : Bool) :
    s.hostWordWrite w a be d more =
      (if w = eventWord then (s.memWrite a be d).clearEvents be d else s.memWrite a be d).finishWord more := by
  simp [State.hostWordWrite, memoryOpen_portOpen ho, ho, hbe, hc]

/-- R11: a full write to a T word hands the request to its block, where no load-cycle step waits. -/
theorem Quiet.hostWordWrite_request {s : State} (h : Quiet s) {w : WordRef} (ho : memoryOpen s = true)
    (hc : wordClass s.map w = .t) (a : Nat) (d : Word) (more : Bool) :
    s.hostWordWrite w a 15 d more = (s.requested a d more).emit (.request w d) := by
  have hl : awaitsLoadCycle s w = false := by simp [awaitsLoadCycle, loadCycleWaits, h.waiting]
  simp [State.hostWordWrite, memoryOpen_portOpen ho, ho, hl, hc, State.hostRequest, State.requested]

/-- R203: the event flags that a write clears, those written as 1 in an enabled lane. -/
theorem getLsbD_clearEvents (s : State) (be : BitVec 4) (d : Word) {i : Nat} (hi : i < 9) :
    (s.clearEvents be d).report.events.getLsbD i
      = (s.report.events.getLsbD i && !(d.getLsbD i && be.getLsbD (i / 8))) := by
  have hb : (enabledBits be d).getLsbD i = (d.getLsbD i && be.getLsbD (i / 8)) := by
    simp only [enabledBits, mergeLanes, ofLanes, BitVec.getLsbD_append]
    by_cases h : i < 8
    · have h0 : i / 8 = 0 := by omega
      rw [if_pos h, h0]
      split <;> simp_all [lane]
    · obtain rfl : i = 8 := by omega
      rw [if_neg h, if_pos (by decide : 8 - 8 < 8)]
      split <;> simp_all [lane]
  simp only [State.clearEvents, BitVec.getLsbD_and, BitVec.getLsbD_not, BitVec.getLsbD_setWidth, hb, hi, decide_true,
    Bool.true_and]

/-! ### The request words and their results -/

/-- The request words of the windows (R11, section 12.3). -/
inductive RequestWord : WordRef → Prop
  | commit : RequestWord commitWord
  | handling : RequestWord handlingControl
  | go (k : Nat) : RequestWord (goWord k)
  | stage : RequestWord stageControl
  | alignment : RequestWord alignmentCommitWord
  | view : RequestWord viewRequestWord
  | focus : RequestWord focusControl
  | query : RequestWord queryTriggerWord
  | listSeal : RequestWord sealWord
  | seq : RequestWord seqControl
  | verdict : RequestWord verdictWord
  | disposition (r : Nat) : RequestWord (recordWord r 4)
  | lot : RequestWord lotControl

/-! The offsets at which each window has a word of class T (section 12.3). -/

theorem planClass_t {o : Nat} (h : planClass o = .t) : o = 0x8C := by
  simp only [planClass, ite_eq_iff, reduceCtorEq, and_false, false_or, and_true, or_false] at h
  exact h.2

theorem handlingClass_t {o : Nat} (h : handlingClass o = .t) (ha : o % 4 = 0) :
    o = 0x440 ∨ ∃ k, o = 0x400 + 16 * k + 8 := by
  unfold handlingClass at h
  split_ifs at h
  · split at h <;> cases h
  · split at h <;> cases h
    exact .inr ⟨(o - 0x400) / 16, by omega⟩
  · exact .inl ‹_›

theorem stageClass_t {o : Nat} (h : stageClass o = .t) : o = 0x018 ∨ o = 0x068 ∨ o = 0x07C := by
  simp only [stageClass, ite_eq_iff, reduceCtorEq, and_false, false_or, and_true, or_false] at h
  omega

theorem focusClass_t {o : Nat} (h : focusClass o = .t) : o = 0x918 ∨ o = 0x93C := by
  simp only [focusClass, ite_eq_iff, reduceCtorEq, and_false, false_or, and_true, or_false] at h
  omega

theorem defectClass_t {o : Nat} (h : defectClass o = .t) (ha : o % 4 = 0) :
    o = 0x000 ∨ o = 0x008 ∨ o = 0x018 ∨ ∃ r, o = 0x1000 + 32 * r + 4 * 4 := by
  unfold defectClass at h
  by_cases ho : o < 0x1000
  · simp only [ite_eq_iff, reduceCtorEq, and_false, false_or, and_true] at h
    omega
  · iterate 15 rw [if_neg (by omega)] at h
    split at h <;> cases h
    exact .inr (.inr (.inr ⟨(o - 0x1000) / 32, by omega⟩))

theorem lotClass_t {o : Nat} (h : lotClass o = .t) : o = 0x00C := by
  simp only [lotClass, ite_eq_iff, reduceCtorEq, and_false, false_or, and_true, or_false] at h
  omega

theorem ringClass_ne_t (len o : Nat) : ringClass len o ≠ .t := by
  unfold ringClass
  repeat' split
  all_goals decide

/-- A word of class T is one of the request words. -/
theorem requestWord_of_class {map : Option Plan} {w : WordRef} (hc : wordClass map w = .t) (ha : w.off % 4 = 0) :
    RequestWord w := by
  obtain ⟨win, o⟩ := w
  cases win with
  | plan =>
    obtain rfl := planClass_t hc
    exact .commit
  | handling =>
    obtain rfl | ⟨k, rfl⟩ := handlingClass_t hc ha
    · exact .handling
    · exact .go k
  | stage =>
    obtain rfl | rfl | rfl := stageClass_t hc
    · exact .stage
    · exact .alignment
    · exact .view
  | focus =>
    obtain rfl | rfl := focusClass_t hc
    · exact .focus
    · exact .query
  | defect =>
    obtain rfl | rfl | rfl | ⟨r, rfl⟩ := defectClass_t hc ha
    · exact .listSeal
    · exact .seq
    · exact .verdict
    · exact .disposition r
  | lot =>
    obtain rfl := lotClass_t hc
    exact .lot
  | ring => exact absurd hc (ringClass_ne_t _ o)

/-- The state whose table holds a result code for a request word (R11). -/
def State.setResult (w : WordRef) (c : Code) (s : State) : State :=
  match w.win with
  | .plan => s.onPlan fun u => { u with commitResult := c }
  | .handling =>
    if w.off = 0x440 then s.onHand fun h => { h with result := c }
    else s.setSlot ((w.off - 0x400) / 16) { s.slot ((w.off - 0x400) / 16) with goResult := c }
  | .stage =>
    if w.off = 0x018 then s.stageResult c
    else if w.off = 0x068 then s.onXform fun x => { x with commitResult := c }
    else s.onXform fun x => { x with viewResult := c }
  | .focus =>
    if w.off = 0x918 then s.onFocus fun u => { u with ctlResult := c }
    else s.onFocus fun u => { u with queryResult := c }
  | .defect =>
    if w.off = 0x000 then s.sealResult c
    else if w.off = 0x008 then s.onSeq fun q => { q with result := c }
    else if w.off = 0x018 then s.onSeq fun q => { q with vResult := c }
    else s.setDefect ((w.off - 0x1000) / 32) { s.defect ((w.off - 0x1000) / 32) with disposition := c }
  | .lot => s.lotResult c
  | .ring => s

/-! A GO word and a disposition word carry a number in their offset, so what the functions of a request word do at them
is said once; at the other request words it holds by evaluation. -/

@[simp] theorem goWord_win (k : Nat) : (goWord k).win = .handling := rfl
@[simp] theorem goWord_off_ne (k : Nat) : (goWord k).off ≠ 0x440 := by simp only [goWord]; omega
@[simp] theorem goWord_slot (k : Nat) : ((goWord k).off - 0x400) / 16 = k := by simp only [goWord]; omega
@[simp] theorem goWord_inj (j k : Nat) : goWord j = goWord k ↔ j = k := by simp [goWord]

@[simp] theorem recordWord_win (r k : Nat) : (recordWord r k).win = .defect := rfl
theorem recordWord_off_ne (r k : Nat) {o : Nat} (ho : o < 0x1000) : (recordWord r k).off ≠ o := by
  simp only [recordWord]; omega
@[simp] theorem recordWord_record (r : Nat) : ((recordWord r 4).off - 0x1000) / 32 = r := by
  simp only [recordWord]; omega
@[simp] theorem recordWord_inj (q r k : Nat) : recordWord q k = recordWord r k ↔ q = r := by simp [recordWord]

theorem resultOf_goWord (s : State) (k : Nat) : resultOf s (goWord k) = (s.slot k).goResult := by simp [resultOf]

theorem resultOf_disposition (s : State) (r : Nat) : resultOf s (recordWord r 4) = (s.defect r).disposition := by
  simp [resultOf, recordWord_off_ne]

theorem setResult_goWord (k : Nat) (c : Code) (s : State) :
    s.setResult (goWord k) c = s.setSlot k { s.slot k with goResult := c } := by simp [State.setResult]

theorem setResult_disposition (r : Nat) (c : Code) (s : State) :
    s.setResult (recordWord r 4) c = s.setDefect r { s.defect r with disposition := c } := by
  simp [State.setResult, recordWord_off_ne]

/-- A request word's result that has been set reads as it was set, and every other one as before. -/
theorem resultOf_setResult {w w' : WordRef} (hw : RequestWord w) (hw' : RequestWord w') (c : Code) (s : State) :
    resultOf (s.setResult w c) w' = if w' = w then c else resultOf s w' := by
  cases hw with
  | go k =>
    rw [setResult_goWord]
    cases hw' with
    | go j =>
      simp only [resultOf_goWord, State.slot_setSlot, goWord_inj]
      split
      · subst_vars; rfl
      · rfl
    | handling => exact (if_neg fun h => goWord_off_ne k (congrArg WordRef.off h).symm).symm
    | _ => rfl
  | disposition r =>
    rw [setResult_disposition]
    cases hw' with
    | disposition q =>
      simp only [resultOf_disposition, State.defect_setDefect, recordWord_inj]
      split
      · subst_vars; rfl
      · rfl
    | listSeal | seq | verdict =>
      exact (if_neg fun h => recordWord_off_ne r 4 (by decide) (congrArg WordRef.off h).symm).symm
    | _ => rfl
  | handling =>
    cases hw' with
    | go j =>
      rw [if_neg fun h => goWord_off_ne j (congrArg WordRef.off h), resultOf_goWord, resultOf_goWord]
      rfl
    | _ => rfl
  | listSeal | seq | verdict =>
    cases hw' with
    | disposition q =>
      rw [if_neg fun h => recordWord_off_ne q 4 (by decide) (congrArg WordRef.off h), resultOf_disposition,
        resultOf_disposition]
      rfl
    | _ => rfl
  | _ => cases hw' <;> rfl

/-! ### A request that its block answers in one step -/

/-- The one step made in an event, of an operation that does not go on, is taken where the queue has room for the words
that it names; what it makes comes next. -/
theorem flush_only {n : Nat} {s t : State} {op : StepOp} {more : List Task} (hm : s.made = [[op]])
    (hw : s.waiting = []) (hq : s.sequel = []) (hn : s.named = []) (ht : runOp op { s with made := [[]] } = t)
    (htm : t.made = [] :: more) (htq : t.sequel = []) (hl : s.queue.length + t.named.length ≤ 16) :
    flush (n + 1) s = flush n { t with
      made := more, sequel := [], named := [], queue := putEntries s.queue (wordEntries t t.named) } := by
  have hfresh : { s with made := [[]] }.fresh = { s with made := [[]] } := by
    unfold State.fresh
    simp only [← hq, ← hn]
  have hran : { s with made := [[]] }.ran false op = t := by rw [State.ran, if_neg (by decide), hfresh, ht]
  have hes : { s with made := [[]] }.ranEntries false op = wordEntries t t.named := by rw [State.ranEntries, hran]
  have hfit : fits s.queue ({ s with made := [[]] }.ranEntries false op) = true := by
    rw [hes]
    have := length_wordEntries_le t t.named
    exact fits_of_length (by omega)
  have hnone : someWaits s = false := by simp [someWaits, hw]
  rw [flush_taken hm (by rw [hnone]; exact tryStep_of_fits hfit), State.took, hran, hes,
    State.proceed_nil (rest := []) (more := more) (by exact htq) (by exact htm)]
  rfl

/-- The state after a request that its block has answered in `u`: the words `ws` have joined the queue, and the request
word is finished (R11, R17). -/
def State.answered (ws : List WordRef) (u : State) : State :=
  { u.finishRequest with made := [], queue := putEntries u.queue (wordEntries u ws) }

/-- Where no step but the finish of a request word is untaken, every word shows its table's value. -/
theorem shownWord_of_untaken {s : State} (h : untaken s = [] ∨ untaken s = [.finishHost]) (w : WordRef) :
    shownWord s w = hWord s w := by
  obtain h | h := h <;> rw [shownWord, h] <;> rfl

/-- The finish of a request word changes no word. -/
theorem wordEntries_answered {u : State} (hm : u.made = [[]]) (hw : u.waiting = []) (ws vs : List WordRef) :
    wordEntries ((u.name ws).emit .finishHost) vs = wordEntries u vs ∧
      wordEntries (u.answered ws) vs = wordEntries u vs := by
  have hu := shownWord_of_untaken (s := u) (.inl (by simp [untaken, hm, hw]))
  have hf := shownWord_of_untaken (s := (u.name ws).emit .finishHost) (.inr (by simp [untaken, hm, hw]))
  have ha := shownWord_of_untaken (s := u.answered ws)
    (.inl (by simp [untaken, State.answered, State.finishRequest, hw]))
  simp only [wordEntries, hu, hf, ha]
  exact ⟨rfl, rfl⟩

/-- A request that its block answers in `u` by naming the words `ws` and finishing the request word, with nothing else
made or waiting, is done in one event (R11, R17). -/
theorem Quiet.settle_answered {s u : State} {w : WordRef} {a : Nat} {d : Word} {more : Bool} {ws : List WordRef}
    (h : Quiet s) (ho : memoryOpen s = true) (hc : wordClass s.map w = .t)
    (ht : { s.requested a d more with made := [[]] }.takeRequest w d = (u.name ws).emit .finishHost)
    (hm : u.made = [[]]) (hq : u.sequel = []) (hn : u.named = []) (hw : u.waiting = [])
    (hws : ws.Nodup) (hl : ws.length ≤ 4) :
    (s.hostWordWrite w a 15 d more).settle = u.answered ws := by
  have hlen := memoryOpen_length ho
  have hqueue : u.queue = s.queue := by
    have hspec := (State.takeRequest_spec w d { s.requested a d more with made := [[]] }).2.1
    rw [ht] at hspec
    exact hspec
  have hnamed : ((u.name ws).emit .finishHost).named = ws := by
    show ws.foldl nameWord u.named = ws
    rw [hn, foldl_nameWord_nodup ws [] hws, List.nil_append]
  have hmade : ((s.requested a d more).emit (.request w d)).made = [[.request w d]] := by
    rw [State.emit_made, show (s.requested a d more).made = [] from h.made]; rfl
  have hput : (putEntries s.queue (wordEntries u ws)).length ≤ 16 := by
    have := length_putEntries_le_add s.queue (wordEntries u ws)
    have := length_wordEntries_le u ws
    omega
  have hflush : flush 256 ((s.requested a d more).emit (.request w d)) = u.answered ws := by
    rw [flush_only hmade h.waiting h.sequel h.named ht (more := [[.finishHost]]) (by simp [hm]) hq
        (by rw [hnamed]; show s.queue.length + ws.length ≤ 16; omega), hnamed, (wordEntries_answered hm hw ws ws).1,
      flush_finishHost (rest := []) (more := []) rfl (by simp [Machine.someWaits, hw]) hput, flush_nil _ rfl]
    unfold State.answered State.finishRequest State.emit State.name putFirst
    simp only [hq, hn, hqueue]
    rfl
  have hwait : (u.answered ws).waiting = [] := hw
  rw [h.hostWordWrite_request ho hc, State.settle, hflush]
  simp only [hwait, List.filter_nil]
  simp only [State.answered, State.finishRequest, hw]

/-! ### Refusals with UNKNOWN -/

/-- What a refusal with UNKNOWN leaves in the block of a request word: the result, and for the verdict word the verdict's
code 0 and index, which its result word repeats (R11, R174). -/
def State.noteUnknown (w : WordRef) (d : Word) (s : State) : State :=
  State.setResult w .unknown
    (if w = verdictWord then
      s.onSeq fun q => { q with vCode := 0, vIndex := BitVec.ofNat 12 (getField d 16 12) }
    else s)

/-- A refusal with UNKNOWN changes tables of the blocks and nothing else. -/
theorem State.noteUnknown_frame (w : WordRef) (d : Word) (s : State) :
    s.noteUnknown w d = { s with
      planU := (s.noteUnknown w d).planU, hand := (s.noteUnknown w d).hand, motion := (s.noteUnknown w d).motion
      xform := (s.noteUnknown w d).xform, focus := (s.noteUnknown w d).focus, defects := (s.noteUnknown w d).defects
      seq := (s.noteUnknown w d).seq, lot := (s.noteUnknown w d).lot } := by
  unfold State.noteUnknown State.setResult
  repeat' split
  all_goals rfl

@[simp] theorem State.noteUnknown_mem (w : WordRef) (d : Word) (s : State) : (s.noteUnknown w d).mem = s.mem := by
  rw [State.noteUnknown_frame]
@[simp] theorem State.noteUnknown_queue (w : WordRef) (d : Word) (s : State) : (s.noteUnknown w d).queue = s.queue := by
  rw [State.noteUnknown_frame]
@[simp] theorem State.noteUnknown_waiting (w : WordRef) (d : Word) (s : State) :
    (s.noteUnknown w d).waiting = s.waiting := by
  rw [State.noteUnknown_frame]
@[simp] theorem State.noteUnknown_made (w : WordRef) (d : Word) (s : State) : (s.noteUnknown w d).made = s.made := by
  rw [State.noteUnknown_frame]
@[simp] theorem State.noteUnknown_sequel (w : WordRef) (d : Word) (s : State) :
    (s.noteUnknown w d).sequel = s.sequel := by
  rw [State.noteUnknown_frame]
@[simp] theorem State.noteUnknown_named (w : WordRef) (d : Word) (s : State) : (s.noteUnknown w d).named = s.named := by
  rw [State.noteUnknown_frame]

/-- The result of the refused word is UNKNOWN, and that of every other request word is kept (R11). -/
theorem resultOf_noteUnknown {w w' : WordRef} (hw : RequestWord w) (hw' : RequestWord w') (d : Word) (s : State) :
    resultOf (s.noteUnknown w d) w' = if w' = w then .unknown else resultOf s w' := by
  rw [State.noteUnknown, resultOf_setResult hw hw']
  congr 1
  split
  · cases hw' <;> rfl
  · rfl

theorem takeRequest_goWord (k : Nat) (d : Word) (s : State) : s.takeRequest (goWord k) d = s.takeGo k d := by
  simp [State.takeRequest]

theorem takeRequest_disposition (r : Nat) (d : Word) (s : State) :
    s.takeRequest (recordWord r 4) d = s.takeDisposition r d := by
  simp [State.takeRequest, recordWord_off_ne]

theorem noteUnknown_goWord (k : Nat) (d : Word) (s : State) :
    s.noteUnknown (goWord k) d = s.setSlot k { s.slot k with goResult := .unknown } :=
  setResult_goWord k .unknown s

theorem noteUnknown_disposition (r : Nat) (d : Word) (s : State) :
    s.noteUnknown (recordWord r 4) d = s.setDefect r { s.defect r with disposition := .unknown } := by
  rw [State.noteUnknown, if_neg fun h => recordWord_off_ne r 4 (by decide) (congrArg WordRef.off h),
    setResult_disposition]

theorem resultWords_goWord (k : Nat) : resultWords (goWord k) = [slotWord k] := by simp [resultWords]

theorem resultWords_disposition (r : Nat) : resultWords (recordWord r 4) = [recordWord r 7] := by
  simp [resultWords, recordWord_off_ne]

/-- Each block refuses a value that names no request of its word with UNKNOWN: one step that names the word's result
words, with which the word is finished (R11). -/
theorem takeRequest_unknown {w : WordRef} (hw : RequestWord w) {d : Word} (hn : namesRequest w d = false) (s : State) :
    s.takeRequest w d = ((s.noteUnknown w d).name (resultWords w)).emit .finishHost := by
  cases hw with
  | commit =>
    have hd : d ≠ Config.commitCode := by simpa [namesRequest, commitWord] using hn
    simp only [State.takeRequest, commitWord, State.takeCommit, if_pos hd]
    rfl
  | handling =>
    have hd : ¬(getField d 0 4 = 1 ∧ (getField d 8 2 = 1 ∨ getField d 8 2 = 2)) ∧
        ¬(2 ≤ getField d 0 4 ∧ getField d 0 4 ≤ 5) := by
      simpa [namesRequest, handlingControl] using hn
    show s.takeHandling d = _
    unfold State.takeHandling
    split
    · split
      any_goals omega
      rfl
    any_goals omega
    rfl
  | go k =>
    have hd : d ≠ 1 := by simpa [namesRequest] using hn
    rw [takeRequest_goWord, State.takeGo, if_neg hd, noteUnknown_goWord, resultWords_goWord]
    rfl
  | stage =>
    have hd : ¬(1 ≤ d.toNat ∧ d.toNat ≤ 3) := by simpa [namesRequest, stageControl] using hn
    show s.takeStageControl d = _
    unfold State.takeStageControl
    split
    any_goals omega
    rfl
  | alignment =>
    have hd : d ≠ 1 := by simpa [namesRequest, alignmentCommitWord] using hn
    show s.takeAlignment d = _
    rw [State.takeAlignment, if_pos hd]
    rfl
  | view =>
    have hd : d ≠ 1 := by simpa [namesRequest, viewRequestWord] using hn
    show s.takeView d = _
    rw [State.takeView, if_pos hd]
    rfl
  | focus =>
    have hd : ¬(1 ≤ d.toNat ∧ d.toNat ≤ 3) := by simpa [namesRequest, focusControl] using hn
    show s.takeFocusControl d = _
    unfold State.takeFocusControl
    split
    any_goals omega
    rfl
  | query =>
    have hd : d ≠ 1 := by simpa [namesRequest, queryTriggerWord] using hn
    show s.takeQuery d = _
    rw [State.takeQuery, if_pos hd]
    rfl
  | listSeal => simp [namesRequest, sealWord] at hn
  | seq =>
    have hd : ¬(1 ≤ d.toNat ∧ d.toNat ≤ 6) := by simpa [namesRequest, seqControl] using hn
    show s.takeSeqControl d = _
    unfold State.takeSeqControl
    split
    any_goals omega
    rfl
  | verdict =>
    have hd : getField d 0 2 = 0 := by simpa [namesRequest, verdictWord] using hn
    show s.takeVerdict d = _
    simp only [State.takeVerdict, verdictCheck, hd, if_pos]
    rfl
  | disposition r =>
    have hd : d ≠ 1 ∧ d ≠ 2 := by simpa [namesRequest, recordWord_off_ne] using hn
    have hc : dispositionCheck s r d = .unknown := if_pos hd
    rw [takeRequest_disposition, State.takeDisposition, hc, noteUnknown_disposition, resultWords_disposition]
    rfl
  | lot =>
    have hd : ¬(1 ≤ d.toNat ∧ d.toNat ≤ 3) := by simpa [namesRequest, lotControl] using hn
    show s.takeLotControl d = _
    unfold State.takeLotControl
    split
    any_goals omega
    rfl

theorem resultWords_nodup (w : WordRef) : (resultWords w).Nodup := by
  unfold resultWords
  repeat' split
  all_goals simp [planStatusWords, stageStatus, transformStatus, lotStateWords]

theorem resultWords_length (w : WordRef) : (resultWords w).length ≤ 4 := by
  unfold resultWords
  repeat' split
  all_goals simp [planStatusWords, stageStatus, transformStatus, lotStateWords]

/-- The state in which a request word is finished with the result UNKNOWN (R11). -/
def State.refusedUnknown (w : WordRef) (a : Nat) (d : Word) (more : Bool) (s : State) : State :=
  State.answered (resultWords w) (State.noteUnknown w d { s.requested a d more with made := [[]] })

/-- A full-word write of a value that names no request of its word ends in one event with the result UNKNOWN (R11). -/
theorem Quiet.settle_unknown {s : State} (h : Quiet s) {w : WordRef} (ho : memoryOpen s = true)
    (hc : wordClass s.map w = .t) (hw : RequestWord w) {d : Word} (hn : namesRequest w d = false) (a : Nat)
    (more : Bool) : (s.hostWordWrite w a 15 d more).settle = s.refusedUnknown w a d more :=
  h.settle_answered ho hc (takeRequest_unknown hw hn _) (State.noteUnknown_made ..)
    ((State.noteUnknown_sequel ..).trans h.sequel) ((State.noteUnknown_named ..).trans h.named)
    ((State.noteUnknown_waiting ..).trans h.waiting) (resultWords_nodup w) (resultWords_length w)

/-- R11: the refused word alone has a new result. -/
theorem resultOf_refusedUnknown {w w' : WordRef} (hw : RequestWord w) (hw' : RequestWord w') (a : Nat) (d : Word)
    (more : Bool) (s : State) :
    resultOf (s.refusedUnknown w a d more) w' = if w' = w then .unknown else resultOf s w' :=
  resultOf_noteUnknown hw hw' d { s.requested a d more with made := [[]] }

/-- R11: memory receives the refused value. -/
theorem State.refusedUnknown_mem (w : WordRef) (a : Nat) (d : Word) (more : Bool) (s : State) :
    (s.refusedUnknown w a d more).mem = writeWordAt s.mem a 15 d :=
  State.noteUnknown_mem ..

/-- R11, R17: the queue takes the refused word's result words. -/
theorem Quiet.publishes_refusedUnknown {s : State} (h : Quiet s) (w : WordRef) (a : Nat) (d : Word) (more : Bool) :
    Publishes s (s.refusedUnknown w a d more) (resultWords w) := by
  have he := (wordEntries_answered (u := State.noteUnknown w d { s.requested a d more with made := [[]] })
    (State.noteUnknown_made ..) ((State.noteUnknown_waiting ..).trans h.waiting) (resultWords w) (resultWords w)).2
  rw [Publishes, State.refusedUnknown, he]
  exact congrArg (putEntries · _) (State.noteUnknown_queue ..)

/-! ### The statements of the through path -/

/-- Settles O11: the host's word is written with the table value, or for a ring record not at all. -/
theorem hWriteIsSubstituted : Obligations.HWriteIsSubstituted := by
  intro s addr be d more hq hp hbe w hw hc
  refine ⟨fun ho hr => ?_, fun hr => ?_⟩
  · have h := hostWordWrite_h ho hbe hc hr (wordAligned addr.toNat) d more
    rw [hq.shownWord] at h
    exact ⟨_, hq.act_eq ((hostWrite_eq hw be d more).trans h) rfl rfl, rfl, hq.storesOnly rfl⟩
  · exact hq.act_eq ((hostWrite_eq hw be d more).trans (hostWordWrite_ringRecord hp hbe hc hr _ d more)) rfl rfl

/-- Settles O13: a partial write makes no request, a value that names none is refused with UNKNOWN, and a write of a
status word reaches memory alone, but for the event flags that a write of the event word clears. -/
theorem writesOfRequestAndStatusWords : Obligations.WritesOfRequestAndStatusWords := by
  refine ⟨fun s addr be d more hq ho hbe w hw => ⟨fun hc hbe' => ?_, fun hc hn => ?_, fun hc hne => ?_⟩,
    fun s be d more a ht hbe => ?_⟩
  · have h := hostWordWrite_partial ho hbe hc hbe' (wordAligned addr.toNat) d more
    exact ⟨_, hq.act_eq ((hostWrite_eq hw be d more).trans h) rfl rfl, rfl, hq.storesOnly rfl⟩
  · have hr := requestWord_of_class hc (decodeAddr_aligned hw)
    have hmem := s.refusedUnknown_mem w (wordAligned addr.toNat) d more
    refine ⟨s.refusedUnknown w (wordAligned addr.toNat) d more, ?_, ?_, hq.publishes_refusedUnknown w _ d more,
      fun w' hc' ha' hne => ?_, rfl, ?_, hmem, hq.storesOnly hmem⟩
    · show s.act _ = _
      rw [State.act_eq hq.inReset, hostWrite_eq hw, hq.settle_unknown ho hc hr hn]
    · rw [resultOf_refusedUnknown hr hr, if_pos rfl]
    · rw [resultOf_refusedUnknown hr (requestWord_of_class hc' ha'), if_neg hne]
    · rfl
  · have h := hostWordWrite_s ho hbe hc (wordAligned addr.toNat) d more
    rw [if_neg hne] at h
    exact ⟨_, hq.act_eq ((hostWrite_eq hw be d more).trans h) rfl rfl, rfl, hq.storesOnly rfl⟩
  · obtain ⟨hq, ho, ha⟩ := ht
    have h := hostWordWrite_s (w := eventWord) ho hbe rfl a d more
    rw [if_pos rfl] at h
    exact ⟨_, hq.act_eq ((hostNamedWrite_eq ha be d more).trans h) rfl rfl,
      fun i hi => getLsbD_clearEvents s be d hi, rfl, hq.storesOnly rfl⟩

end Sys2Proof.Machine

/-! Chapter 4: the GO of a transfer, its checks and its answers. -/

namespace Sys2Proof.Machine

/-! ### A request that changes the handling unit alone -/

/-- The state in which the step of a request runs: the request has been handed to its block, and its own step is the one
in hand (R11). -/
def State.handed (a : Nat) (d : Word) (more : Bool) (s : State) : State := { s.requested a d more with made := [[]] }

/-- A request that its block answers in `u` is done in one event, which leaves `u` answered (R11, R17). -/
theorem Takes.act_answered {s u : State} {w : WordRef} {a : Nat} {d : Word} {more : Bool} {ws : List WordRef}
    (h : Takes s w a) (hc : wordClass s.map w = .t)
    (ht : (s.handed a d more).takeRequest w d = (u.name ws).emit .finishHost)
    (hu : u = { s.handed a d more with hand := u.hand }) (hws : ws.Nodup) (hl : ws.length ≤ 4) :
    s.act (State.hostNamedWrite w 15 d more) = .next (u.answered ws) := by
  obtain ⟨hq, ho, ha⟩ := h
  rw [State.act_eq hq.inReset, hostNamedWrite_eq ha, hq.settle_answered ho hc ht _ _ _ _ hws hl]
  · rw [hu]; rfl
  · rw [hu]; exact hq.sequel
  · rw [hu]; exact hq.named
  · rw [hu]; exact hq.waiting

/-- What an answer that changes the handling unit alone leaves: the host's word is done, and the queue has taken the words
that the answer names. -/
theorem Takes.answered_frame {s u : State} {w : WordRef} {a : Nat} {d : Word} {more : Bool}
    (h : Takes s w a) (hu : u = { s.handed a d more with hand := u.hand }) (ws : List WordRef) :
    u.answered ws = { s.hostDone a 15 d more with hand := u.hand, queue := (u.answered ws).queue } ∧
      Publishes s (u.answered ws) ws ∧ StoresOnly s (u.answered ws) a := by
  have hmade : u.made = [[]] := by rw [hu]; rfl
  have hwaiting : u.waiting = [] := by rw [hu]; exact h.1.waiting
  refine ⟨?_, ?_, h.1.storesOnly (be := 15) (d := d) ?_⟩
  · rw [hu]
    simp [State.answered, State.finishRequest, State.handed, State.requested, State.hostDone, State.finishWord,
      State.memWrite, h.1.made, h.hostBusy]
  · rw [Publishes, (wordEntries_answered hmade hwaiting ws ws).2]
    rw [hu]; rfl
  · rw [hu]; rfl

/-! ### The checks of a GO -/

/-- The wafer is the wafer of a QUEUED or SENT slot (R61). -/
abbrev InOpenSlot (s : State) (x : Nat) : Prop :=
  ∃ j, j < 4 ∧ ((s.slot j).st = .queued ∨ (s.slot j).st = .sent) ∧ (s.slot j).wafer = x

theorem Slot.open_iff (t : Slot) : t.open = true ↔ t.st = .queued ∨ t.st = .sent := by simp [Slot.open]

theorem Wafer.lost_iff (v : Wafer) : v.lost = true ↔ v.progress = .unmapped ∨ v.suspect = true := by simp [Wafer.lost]

theorem waferOfSlot_iff (s : State) (x : Nat) : waferOfSlot s x = true ↔ InOpenSlot s x := by
  have hmem (j : Nat) : j ∈ [0, 1, 2, 3] ↔ j < 4 := by simp; omega
  simp only [waferOfSlot, List.any_eq_true, Bool.and_eq_true, beq_iff_eq, Slot.open_iff, hmem]

theorem sentDestination_iff (s : State) (d : Nat) :
    sentDestination s d = true ↔ ∃ j, s.sentSlot = some j ∧ (s.slot j).dest = d := by
  unfold sentDestination
  cases s.sentSlot <;> simp

theorem sequencerAside_iff (s : State) :
    sequencerAside s = true ↔ s.seq.st = .idle ∨ s.seq.st = .ready ∨ s.seq.st = .done := by
  simp [sequencerAside, or_assoc]

open Classical in
/-- The checks of a GO of wafer `w` to `d`, in the order of R61. -/
theorem goCheck_eq {s : State} {k w d : Nat} (hw : (s.slot k).waferCopy.toNat = w)
    (hd : (s.slot k).destCopy.toNat = d) :
    goCheck s k =
      if (s.slot k).st = .queued ∨ (s.slot k).st = .sent then .busy
      else if 50 ≤ w ∨ (s.wafer w).progress = .unmapped ∨ (s.wafer w).suspect = true then .badWafer
      else if InOpenSlot s w then .waferBusy
      else if 55 ≤ d ∨ (s.wafer w).place = .pos d then .badDest
      else if d < 50 ∧ d ≠ w then .notHome
      else if (s.posn d).uncertain = true then .destUncertain
      else if (s.posn d).reservation ≠ none ∨ ∃ j, s.sentSlot = some j ∧ (s.slot j).dest = d then .destReserved
      else if ∃ o, (s.posn d).occupant = some o ∧ ¬InOpenSlot s o then .destOccupied
      else if (s.wafer w).place = .pos 52 ∧ ¬(s.seq.st = .idle ∨ s.seq.st = .ready ∨ s.seq.st = .done) then .stageBusy
      else .ok := by
  subst hw hd
  cases ho : (s.posn (s.slot k).destCopy.toNat).occupant <;>
    simp only [goCheck, ho, Slot.open_iff, Wafer.lost_iff, waferOfSlot_iff, Bool.or_eq_true, Bool.and_eq_true,
      Bool.not_eq_true', ← Bool.not_eq_true, sentDestination_iff, sequencerAside_iff, Option.isSome_iff_ne_none,
      beq_iff_eq, Config.posST, Option.some.injEq, exists_eq_left', reduceCtorEq, false_and, exists_false]

/-! ### The answers to a GO -/

theorem wordClass_goWord (map : Option Plan) (k : BitVec 2) : wordClass map (goWord k.toNat) = .t := by
  show handlingClass _ = .t
  revert k
  decide

/-- The slot status word of a slot is no position's word. -/
theorem slotWord_ne_positionWord {k d : Nat} (hd : d < 55) : slotWord k ≠ positionWord d := by
  simp only [slotWord, positionWord, ne_eq, WordRef.mk.injEq, true_and]
  omega

/-- The tables after a refused GO: the slot has the GO result, and nothing else of it changes (R61). -/
def State.goRefused (k : Nat) (r : Code) (s : State) : State := s.setSlot k { s.slot k with goResult := r }

/-- The tables after an accepted GO: the slot has its transfer, the destination is reserved, and the slot has joined the
tail of the queue (R62). -/
def State.goQueued (k : Nat) (s : State) : State :=
  let d := (s.slot k).destCopy.toNat
  let s1 := s.setSlot k { s.slot k with
    st := .queued, acked := false, reason := .noReason, goResult := .ok, tag := 0, robotCode := 0
    wafer := (s.slot k).waferCopy.toNat, dest := d }
  (s1.setPosn d { s.posn d with reservation := some k }).onHand fun h => { h with queue := h.queue ++ [k] }

theorem slot_goRefused (s : State) (k : Nat) (r : Code) (j : Nat) :
    (s.goRefused k r).slot j = if j = k then { s.slot k with goResult := r } else s.slot j :=
  State.slot_setSlot ..

theorem slot_goQueued (s : State) (k j : Nat) :
    (s.goQueued k).slot j = if j = k then { s.slot k with
      st := .queued, acked := false, reason := .noReason, goResult := .ok, tag := 0, robotCode := 0
      wafer := (s.slot k).waferCopy.toNat, dest := (s.slot k).destCopy.toNat } else s.slot j :=
  State.slot_setSlot ..

theorem posn_goQueued (s : State) (k q : Nat) :
    (s.goQueued k).posn q =
      if q = (s.slot k).destCopy.toNat then { s.posn (s.slot k).destCopy.toNat with reservation := some k }
      else s.posn q :=
  State.posn_setPosn ..

/-- A GO that fails a check is answered on the slot status word (R61). -/
theorem takeGo_refused {s : State} {k : Nat} {r : Code} (h : goCheck s k = r) (hr : r ≠ .ok) :
    s.takeGo k 1 = ((s.goRefused k r).name [slotWord k]).emit .finishHost := by
  simp [State.takeGo, State.goRefused, h, hr]

/-- A GO that passes every check is answered on the words of the slot and of the destination (R62). -/
theorem takeGo_accepted {s : State} {k : Nat} (h : goCheck s k = .ok) :
    s.takeGo k 1 = ((s.goQueued k).name [slotWord k, positionWord (s.slot k).destCopy.toNat]).emit .finishHost := by
  rw [State.takeGo, if_pos rfl, h]
  rfl

/-- R61: a refused GO changes the slot's GO result alone, in one step on the slot status word. -/
theorem Takes.go_refused {s : State} {k : BitVec 2} {a : Nat} (h : Takes s (goWord k.toNat) a) (more : Bool) {r : Code}
    (hc : goCheck s k.toNat = r) (hr : r ≠ .ok) :
    ∃ t, exec (.go k more) s = .next t ∧
      t.slot k.toNat = { s.slot k.toNat with goResult := r } ∧ (∀ j, j ≠ k.toNat → t.slot j = s.slot j) ∧
      t = { s.hostDone a 15 1 more with hand := { s.hand with slots := t.hand.slots }, queue := t.queue } ∧
      Publishes s t [slotWord k.toNat] ∧ StoresOnly s t a := by
  have hslot := slot_goRefused (s.handed a 1 more) k.toNat r
  have htake : (s.handed a 1 more).takeRequest (goWord k.toNat) 1 = _ :=
    (takeRequest_goWord ..).trans (takeGo_refused hc hr)
  obtain ⟨hframe, hpublishes, hstores⟩ :=
    h.answered_frame (u := (s.handed a 1 more).goRefused k.toNat r) rfl [slotWord k.toNat]
  exact ⟨_, h.act_answered (wordClass_goWord s.map k) htake rfl (List.nodup_singleton _) (by simp),
    (hslot _).trans (if_pos rfl), fun j hj => (hslot j).trans (if_neg hj), hframe, hpublishes, hstores⟩

/-- R62: an accepted GO queues the slot and reserves the destination `d`, in one step on the words of both. -/
theorem Takes.go_accepted {s : State} {k : BitVec 2} {a d : Nat} (h : Takes s (goWord k.toNat) a) (more : Bool)
    (hc : goCheck s k.toNat = .ok) (hd : (s.slot k.toNat).destCopy.toNat = d) (hlt : d < 55) :
    ∃ t, exec (.go k more) s = .next t ∧
      t.slot k.toNat = { s.slot k.toNat with
        st := .queued, acked := false, reason := .noReason, goResult := .ok, tag := 0, robotCode := 0
        wafer := (s.slot k.toNat).waferCopy.toNat, dest := d } ∧
      t.posn d = { s.posn d with reservation := some k.toNat } ∧
      (∀ j, j ≠ k.toNat → t.slot j = s.slot j) ∧ (∀ q, q ≠ d → t.posn q = s.posn q) ∧
      t.hand = { s.hand with slots := t.hand.slots, positions := t.hand.positions, queue := s.hand.queue ++ [k.toNat] } ∧
      Publishes s t [slotWord k.toNat, positionWord d] ∧
      t = { s.hostDone a 15 1 more with hand := t.hand, queue := t.queue } ∧ StoresOnly s t a := by
  subst hd
  have hslot := slot_goQueued (s.handed a 1 more) k.toNat
  have hposn := posn_goQueued (s.handed a 1 more) k.toNat
  have htake : (s.handed a 1 more).takeRequest (goWord k.toNat) 1 = _ :=
    (takeRequest_goWord ..).trans (takeGo_accepted hc)
  have hwords : [slotWord k.toNat, positionWord (s.slot k.toNat).destCopy.toNat].Nodup := by
    simpa using slotWord_ne_positionWord hlt
  obtain ⟨hframe, hpublishes, hstores⟩ := h.answered_frame (u := (s.handed a 1 more).goQueued k.toNat) rfl
    [slotWord k.toNat, positionWord (s.slot k.toNat).destCopy.toNat]
  exact ⟨_, h.act_answered (wordClass_goWord s.map k) htake rfl hwords (by simp),
    (hslot _).trans (if_pos rfl), (hposn _).trans (if_pos rfl), fun j hj => (hslot j).trans (if_neg hj),
    fun q hq => (hposn q).trans (if_neg hq), rfl, hpublishes, hframe, hstores⟩

/-- Settles O25: a GO is refused with the result of the first of R61's checks that fails, and accepted where none
fails. -/
theorem goIsJudged : Obligations.GoIsJudged := by
  intro s k more a ht
  have refuse {r : Code} (hr : r ≠ .ok) (hc : goCheck s k.toNat = r) := ht.go_refused more hc hr
  have check := goCheck_eq (s := s) (k := k.toNat) rfl rfl
  dsimp only
  refine ⟨fun ho => refuse (by decide) ?_, fun ho hb => refuse (by decide) ?_, fun ho hb hi => refuse (by decide) ?_,
    fun ho hb hi => ⟨fun hd => refuse (by decide) ?_, fun hd hs hn => refuse (by decide) ?_, fun hd hs =>
      ⟨fun hu => refuse (by decide) ?_, fun hu hr => refuse (by decide) ?_, fun hu hr hp => refuse (by decide) ?_,
        fun hu hr hp hst ha => refuse (by decide) ?_, fun hu hr hp ha => ht.go_accepted more ?_ rfl (by omega)⟩⟩⟩
  · rw [check, if_pos ho]
  · rw [check, if_neg ho, if_pos hb]
  · rw [check, if_neg ho, if_neg hb, if_pos hi]
  · rw [check, if_neg ho, if_neg hb, if_neg hi, if_pos hd]
  · rw [check, if_neg ho, if_neg hb, if_neg hi, if_neg hd, if_pos ⟨hs, hn⟩]
  all_goals rw [check, if_neg ho, if_neg hb, if_neg hi, if_neg hd, if_neg (by omega)]
  · rw [if_pos hu]
  all_goals rw [if_neg (ne_true_of_eq_false hu)]
  · rw [if_pos hr]
  · rw [if_neg hr, if_pos hp]
  · rw [if_neg hr, if_neg hp, if_pos ⟨hst, ha⟩]
  · rw [if_neg hr, if_neg hp, if_neg fun h => ha.elim (· h.1) h.2]

end Sys2Proof.Machine

/-! Chapter 5: the requests of the stage control word. -/

namespace Sys2Proof.Machine

/-! ### A request that changes the motion unit alone -/

/-- A stage control request that its block answers in this state, the tables changed: the stage status words are named, and
the request word is to be finished (R11, R85). -/
def State.stageReply (s : State) : State := (s.name stageStatus).emit .finishHost

/-- A stage control request that changes the motion unit alone, to `m`, is done in one event (R17). -/
theorem Takes.stage_replied {s : State} {a : Nat} {d : Word} {more : Bool} {m : Motion} (h : Takes s stageControl a)
    (ht : (s.handed a d more).takeStageControl d = State.stageReply { s.handed a d more with motion := m }) :
    ∃ t, s.act (State.hostNamedWrite stageControl 15 d more) = .next t ∧
      t = { s.hostDone a 15 d more with motion := m, queue := t.queue } ∧ Publishes s t stageStatus ∧
      StoresOnly s t a := by
  have hbusy := h.hostBusy
  obtain ⟨hq, ho, ha⟩ := h
  let u : State := { s.handed a d more with motion := m }
  have hsettle : (s.hostWordWrite stageControl a 15 d more).settle = u.answered stageStatus :=
    hq.settle_answered ho rfl ht rfl hq.sequel hq.named hq.waiting (by decide) (by decide)
  refine ⟨u.answered stageStatus, ?_, ?_, ?_, hq.storesOnly (be := 15) (d := d) rfl⟩
  · rw [State.act_eq hq.inReset, hostNamedWrite_eq ha, hsettle]
  · simp [u, State.answered, State.finishRequest, State.handed, State.requested, State.hostDone, State.finishWord,
      State.memWrite, hq.made, hbusy]
  · rw [Publishes, (wordEntries_answered (u := u) rfl hq.waiting stageStatus stageStatus).2]
    rfl

/-! ### The requests of the word -/

theorem takeStageControl_preset (s : State) : s.takeStageControl 1 = s.takePreset.stageReply := rfl

theorem takeStageControl_enable (s : State) : s.takeStageControl 2 = s.takeEnable.stageReply := rfl

theorem takeStageControl_disable (s : State) :
    s.takeStageControl 3 = State.emit .finishHost
      (if s.motion.enable then State.abortFocus true (State.abortNotice false (s.takeDisable.name stageStatus))
       else s.takeDisable.name stageStatus) := rfl

/-! ### PRESET and MOTION_ENABLE -/

/-- R86: PRESET is refused while the sequencer is RUNNING or PROBING. -/
theorem takePreset_refused {s : State} (h : s.seq.st = .running ∨ s.seq.st = .probing) :
    s.takePreset = { s with motion := { s.motion with result := .state } } :=
  if_pos (by simpa using h)

/-- R86: PRESET loads the counts and empties the move record and the shadow target. -/
theorem takePreset_accepted {s : State} (hr : s.seq.st ≠ .running) (hp : s.seq.st ≠ .probing) :
    s.takePreset = { s with motion := { s.motion with
      x := { s.motion.x with count := s.motion.presetX }, y := { s.motion.y with count := s.motion.presetY }
      active := none, shadow := none, move := .idle, stopCause := .noCause, moveTimer := none, settleTimer := none
      result := .ok } } :=
  if_neg (by simp [hr, hp])

/-- R99: MOTION_ENABLE is refused while INTERLOCK is asserted. -/
theorem takeEnable_refused {s : State} (h : s.motion.interlock = true) :
    s.takeEnable = { s with motion := { s.motion with result := .interlock } } :=
  if_pos h

/-- R99: MOTION_ENABLE enables motion while INTERLOCK is released. -/
theorem takeEnable_accepted {s : State} (h : s.motion.interlock = false) :
    s.takeEnable = { s with motion := { s.motion with enable := true, awaiting := false, result := .ok } } :=
  if_neg (ne_true_of_eq_false h)

/-! ### MOTION_DISABLE -/

/-- R100: with no move in progress MOTION_DISABLE requests no STOP frame; a held MOVE frame is discarded (log 41). -/
theorem takeDisable_still {s : State} (h : moving s.motion = false) :
    s.takeDisable = { s with motion := { s.motion with enable := false, heldMove := none, result := .ok } } := by
  rw [State.takeDisable, if_neg (ne_true_of_eq_false h)]

/-- Where no revisit or probe is under way, a loss of the permission leaves the sequencer alone (R177, R179, R181). -/
theorem abortNotice_of_not_engaged {s : State} (h : ¬SeqEngaged s) (fault : Bool) : s.abortNotice fault = s := by
  obtain ⟨hrunning, hprobing, hring⟩ : s.seq.st ≠ .running ∧ s.seq.st ≠ .probing ∧ pausedRing s.seq = false := by
    simpa [SeqEngaged, pausedRing] using h
  simp [State.abortNotice, State.abortNow, hrunning, hprobing, hring]

/-- With no focus attempt in progress there is none to abort (R138). -/
theorem abortFocus_of_none {s : State} (h : s.focus.attempt = none) (tell : Bool) : s.abortFocus tell = s := by
  rw [State.abortFocus, h]

/-- R100: with motion disabled already, or with nothing under way that its loss ends, MOTION_DISABLE gives no notice. -/
theorem takeStageControl_disable_alone {s : State}
    (h : s.motion.enable = false ∨ (¬SeqEngaged s ∧ s.focus.attempt = none)) :
    s.takeStageControl 3 = s.takeDisable.stageReply := by
  rw [takeStageControl_disable, State.stageReply]
  obtain henable | ⟨hseq, hfocus⟩ := h
  · rw [if_neg (ne_true_of_eq_false henable)]
  · rw [abortNotice_of_not_engaged, abortFocus_of_none, ite_self]
    exacts [hfocus, hseq]

/-! ### The statement of the stage controls -/

/-- Settles O32: each request of the stage control word, refused or not, and MOTION_DISABLE with nothing to abort, changes
the motion unit alone. -/
theorem stageControlsAreTaken : Obligations.StageControlsAreTaken := by
  intro s more a ht
  refine ⟨fun h => ht.stage_replied ?_, fun hr hp => ht.stage_replied ?_, fun h => ht.stage_replied ?_,
    fun h => ht.stage_replied ?_, fun hm h => ht.stage_replied ?_⟩
  · rw [takeStageControl_preset, takePreset_refused (s := s.handed a 1 more) h]
    rfl
  · rw [takeStageControl_preset, takePreset_accepted (s := s.handed a 1 more) hr hp]
    rfl
  · rw [takeStageControl_enable, takeEnable_refused (s := s.handed a 2 more) h]
    rfl
  · rw [takeStageControl_enable, takeEnable_accepted (s := s.handed a 2 more) h]
    rfl
  · rw [takeStageControl_disable_alone (s := s.handed a 3 more) h, takeDisable_still (s := s.handed a 3 more) hm]
    rfl

end Sys2Proof.Machine
